-- ==== Sys2Proof/Word.lean ====
section
/-! DEFINITION. The words of IDL-ADCIF: the widths the spec fixes, and nothing else. -/

namespace Sys2Proof

/-- A host command word, 32 bits (R91). -/
abbrev HostWord := BitVec 32

/-- A transport request word, 35 bits: KIND, WSEL, PAYLOAD (R106). -/
abbrev RequestWord := BitVec 35

/-- The bits of a frame, right-aligned in 32 bits (R131). -/
abbrev TxWord := BitVec 32

/-- A raw conversion code: 16 bits without a sign of their own (R24). -/
abbrev Code := BitVec 16

/-- An 8-bit register or operand. -/
abbrev Byte := BitVec 8

/-- A channel index, the address space CH (R60). -/
abbrev Chan := Fin 8

/-- A time or a duration in microseconds: "times are exact rationals in the model" (93 U16, log 13). -/
abbrev Time := Rat

/-- The three legal frame widths (R7, R66). -/
inductive Width where
  | w16
  | w24
  | w32
  deriving DecidableEq, Repr

/-- The number of bits of a frame of this width. -/
def Width.bits : Width → Nat
  | .w16 => 16
  | .w24 => 24
  | .w32 => 32

end Sys2Proof
end

