-- ==== Sys2Proof/Config.lean ====
section
/-! DEFINITION. What one machine fixes once: the parameters of R8 and R10 with the spec's defaults, the
constraints a parameter set must meet (R11), and the free values the spec leaves open. -/

namespace Sys2Proof

/-- The parameters of R8 and R10, constant for the life of one machine. Every default is the one the
spec's table names; those of R10 are PRESUMED there ("from general knowledge", log 9). Durations are
in microseconds. -/
structure Config where
  /-- OPC_NO_OP, the "plain no-op command". -/
  opcNoOp : BitVec 16 := 0x0000
  /-- OPC_RST, the "RESET command". -/
  opcRst : BitVec 16 := 0x8500
  /-- OPC_AUTO_RST, the "auto-sequence-restart command". -/
  opcAutoRst : BitVec 16 := 0xA000
  /-- OPC_MAN_CH[n], the "channel-select command" of channel n. -/
  opcManCh : Vector (BitVec 16) 8 := #v[0xC000, 0xC400, 0xC800, 0xCC00, 0xD000, 0xD400, 0xD800, 0xDC00]
  /-- REG_AUTO_SEQ_EN, address of the auto-sequence-enable register. -/
  regAutoSeqEn : BitVec 7 := 0x01
  /-- REG_CH_PWR_DN, address of the channel-power-down register. -/
  regChPwrDn : BitVec 7 := 0x02
  /-- REG_RANGE_BASE, address of channel 0's range register. -/
  regRangeBase : BitVec 7 := 0x05
  /-- SEQ_EN_ALL, the value that enables all eight channels. -/
  seqEnAll : Byte := 0xFF
  /-- CS_ACTIVE_LEVEL, the level of an asserted chip-select; false is low. -/
  csActiveLevel : Bool := false
  /-- SPI_MODE, clock polarity and phase. Which bit is which, and that polarity 1 idles high, is PRESUMED
  (log 36): the spec gives mode 1 only. -/
  spiMode : BitVec 2 := 1
  /-- F_SCLK, OPEN in the spec: no value by default, and no rule depends on one. -/
  fSclkHz : Option Nat := none
  /-- T_SETTLE, default 2 µs. -/
  tSettle : Time := 2
  /-- T_POWER_STABLE, default 10 ms. -/
  tPowerStable : Time := 10000
  /-- T_RESET_SETTLE, default 50 ms. -/
  tResetSettle : Time := 50000
  /-- SAMPLE_PERIOD of the host, default 100 µs: the `period` of SCHED (R280). -/
  samplePeriod : Time := 100
  /-- T_SETTLE counted in the block's clock periods: OPEN in the spec (R34), log 14. -/
  settleTicks : Nat := 2
  deriving DecidableEq, Repr

/-- The parameter set of the defaults of R8 and R10. -/
def Config.default : Config := {}

/-- The eleven command words of R11. -/
def Config.commands (c : Config) : List (BitVec 16) :=
  c.opcNoOp :: c.opcRst :: c.opcAutoRst :: c.opcManCh.toList

/-- An address lies in the block of eight range registers (R70). -/
def Config.isRangeReg (c : Config) (a : BitVec 7) : Bool :=
  decide (c.regRangeBase.toNat ≤ a.toNat) && decide (a.toNat ≤ c.regRangeBase.toNat + 7)

/-- The constraints of R11: commands pairwise distinct, the range registers inside the 7-bit space,
the two other registers distinct from each other and from the range registers. -/
def Config.addressesOk (c : Config) : Bool :=
  decide c.commands.Nodup && decide (c.regRangeBase.toNat + 7 ≤ 0x7F)
    && (c.regAutoSeqEn != c.regChPwrDn) && !(c.isRangeReg c.regAutoSeqEn) && !(c.isRangeReg c.regChPwrDn)

/-- The bounds of R8 on the time parameters. -/
def Config.timesOk (c : Config) : Bool :=
  decide (1 ≤ c.tSettle) && decide (c.tSettle ≤ 2) && decide (10000 ≤ c.tPowerStable)
    && decide (20000 ≤ c.tResetSettle) && decide (0 < c.samplePeriod)

/-- A parameter set the model has a meaning for (R8, R11). -/
def Config.wf (c : Config) : Bool := c.addressesOk && c.timesOk

/-- FREE VALUE (log 6): the bits a response lane presents for a missing channel. R46: "A model must
not choose zero or any other value for them". The first argument counts the writes of the codes
buffer, so that two snapshots with no commit between them present the same record (R221). -/
opaque Config.missingLane (epoch chan : Nat) : Code

/-- FREE VALUE (log 17): the code a conversion of channel `chan` started by the ADC's frame number
`frame` produces (the ADC's input is not part of the spec). -/
opaque Config.conversion (chan frame : Nat) : Code

end Sys2Proof
end

