-- ==== Sys2Proof/Syntax.lean ====
section
/-! DEFINITION. The instructions: one constructor for each of the 33 rows of spec/opcode_table.json,
at three levels (R90): host words, transport requests, wire frames. -/

namespace Sys2Proof

/-- The operations of R96, the transport requests of R106 and the wire frames of R111 and R112.
Operands are the raw fields of the encoding (R97); legality of values is the operation's business. -/
inductive Instr where
  -- host command words, formats N, C, CR, V (R91 to R96)
  | reset
  | powerOnAll
  | setRange (ch rg : Byte)
  | getRange (ch : Byte)
  | enterScan
  | readCh (ch : Byte)
  | scanAll
  | getCodes
  | toVoltage (code : Code) (rg : Byte)
  -- transport requests, formats T and RW (R106)
  | transact (wsel : BitVec 2) (payload : BitVec 32)
  | writeReg (a : BitVec 7) (v : Byte)
  -- command frames, format W32 (R111)
  | wNoOp
  | wRst
  | wAutoRst
  | wManCh0
  | wManCh1
  | wManCh2
  | wManCh3
  | wManCh4
  | wManCh5
  | wManCh6
  | wManCh7
  -- register frames, format W24 (R112)
  | wWr (a : BitVec 7) (v : Byte)
  | wWrAutoSeqEn
  | wWrChPwrDn
  | wWrRange0 (v : Byte)
  | wWrRange1 (v : Byte)
  | wWrRange2 (v : Byte)
  | wWrRange3 (v : Byte)
  | wWrRange4 (v : Byte)
  | wWrRange5 (v : Byte)
  | wWrRange6 (v : Byte)
  | wWrRange7 (v : Byte)
  deriving DecidableEq, Repr

/-- The interface a packet belongs to (R90): a host word, a transport request, or a frame of the wire.
"The table's three encodings are told apart by the row's format, not by the bits" (R112). -/
inductive Packet where
  | host (cw : HostWord)
  | request (rq : RequestWord)
  | frame (w : Width) (tx : TxWord)
  deriving DecidableEq, Repr

/-- The row W.MAN_CHn. -/
def Instr.wManCh (n : Chan) : Instr :=
  match n with
  | 0 => .wManCh0
  | 1 => .wManCh1
  | 2 => .wManCh2
  | 3 => .wManCh3
  | 4 => .wManCh4
  | 5 => .wManCh5
  | 6 => .wManCh6
  | 7 => .wManCh7

/-- The row W.WR_RANGEn. -/
def Instr.wWrRange (n : Chan) (v : Byte) : Instr :=
  match n with
  | 0 => .wWrRange0 v
  | 1 => .wWrRange1 v
  | 2 => .wWrRange2 v
  | 3 => .wWrRange3 v
  | 4 => .wWrRange4 v
  | 5 => .wWrRange5 v
  | 6 => .wWrRange6 v
  | 7 => .wWrRange7 v

end Sys2Proof
end

