-- ==== Sys2Proof/WellFormed.lean ====
section
/-! DEFINITION. Which terms of `Instr` stand for a packet of their own. Operand fields have the exact
width of the encoding, so the one check is R112's: "A frame that matches a specific row and W.WR is
the specific one", so W.WR does not name a frame that a specific row names. -/

namespace Sys2Proof

/-- The register frame (a, v) is the fixed frame W.WR_AUTO_SEQ_EN (R112). -/
def Config.isAutoSeqEnFrame (c : Config) (a : BitVec 7) (v : Byte) : Bool :=
  a == c.regAutoSeqEn && v == c.seqEnAll

/-- The register frame (a, v) is the fixed frame W.WR_CH_PWR_DN (R112). -/
def Config.isChPwrDnFrame (c : Config) (a : BitVec 7) (v : Byte) : Bool :=
  a == c.regChPwrDn && v == 0

/-- An instruction that some packet decodes to, under the parameters `c`. -/
def Instr.wellFormed (c : Config) : Instr → Bool
  | .wWr a v => !(c.isAutoSeqEnFrame a v) && !(c.isChPwrDnFrame a v) && !(c.isRangeReg a)
  | _ => true

end Sys2Proof
end

