-- ==== Sys2Proof/Decode.lean ====
section
/-! DEFINITION. Decoding of the three encodings of R90, total and rejecting by name, and after it the
encoder, written from the same tables (R91 to R97, R106 to R112). -/

namespace Sys2Proof

/-- Why a packet is no row of the opcode table. -/
inductive DecodeError where
  /-- OP is 0x0 or 0xA to 0xF (R103). -/
  | reservedOp
  /-- `cw[27:24]` is not 0 (R103). -/
  | reservedBits
  /-- A must-be-zero field of the format is not 0 (R92 to R94, R103). -/
  | mustBeZero
  /-- A KIND = 1 request with WSEL ≠ 01 or a nonzero upper payload (R107). -/
  | malformedWriteReg
  /-- A 32-bit frame whose CMD16 is no device command, or whose low half is not 0 (R111). -/
  | unknownCommand
  /-- A 24-bit frame that is no register write (R112). -/
  | notARegisterWrite
  /-- A 16-bit frame: the format W16 has no row (R110). -/
  | noSuchFormat
  deriving DecidableEq, Repr

/-! ## Frames: the words of R108, R109, R112 -/

/-- The transmit word of a command frame, `{CMD16, 0x0000}` (R108). -/
def cmdFrame (cmd : BitVec 16) : TxWord := cmd ++ (0 : BitVec 16)

/-- The transmit word of a register frame, `{a, 1, v, 0x00}`, right-aligned in 32 bits (R109, R112). -/
def regFrame (a : BitVec 7) (v : Byte) : TxWord :=
  (0 : BitVec 8) ++ a ++ (1 : BitVec 1) ++ v ++ (0 : BitVec 8)

/-- The low `w` bits of a word: "`tx` bits above `w − 1` are ignored" (R131). -/
def Width.trunc (w : Width) (x : BitVec 32) : BitVec 32 := (x.setWidth w.bits).setWidth 32

/-- Bit `k` of the frame in wire order: bit `w − 1 − k` of the word (R63). -/
def Width.wireBit (w : Width) (x : BitVec 32) (k : Nat) : Bool := x.getLsbD (w.bits - 1 - k)

/-- The first `n` bits of a `w`-bit frame, most significant first, the bits after them 0 (R63). -/
def Width.firstBits (w : Width) (n : Nat) (x : BitVec 32) : BitVec 32 :=
  (w.trunc x >>> (w.bits - n)) <<< (w.bits - n)

/-- The shift step in which an error of the atomic draw is seen: `bits`, or the last one (log 25). -/
def Width.errorStep (w : Width) (bits : Nat) : Nat := min bits (w.bits - 1)

/-- The frame width WSEL selects; 11 is reserved (R107). -/
def widthOfWsel (wsel : BitVec 2) : Option Width :=
  match wsel.toNat with
  | 0 => some .w16
  | 1 => some .w24
  | 2 => some .w32
  | _ => none

/-- The address of channel `ch`'s range register, an integer sum (R61, R97). -/
def Config.rangeReg (c : Config) (ch : Chan) : BitVec 7 := c.regRangeBase + BitVec.ofNat 7 ch.val

/-! ## Host words -/

/-- Format N: `cw[23:0]` must be 0 (R92). -/
def formatN (cw : HostWord) (i : Instr) : Except DecodeError Instr :=
  if cw.extractLsb' 0 24 = 0 then .ok i else .error .mustBeZero

/-- Format C: CH in `cw[23:16]`, `cw[15:0]` must be 0 (R93). -/
def formatC (cw : HostWord) (mk : Byte → Instr) : Except DecodeError Instr :=
  if cw.extractLsb' 0 16 = 0 then .ok (mk (cw.extractLsb' 16 8)) else .error .mustBeZero

/-- Format CR: CH in `cw[23:16]`, RG in `cw[15:8]`, `cw[7:0]` must be 0 (R94). -/
def formatCR (cw : HostWord) (mk : Byte → Byte → Instr) : Except DecodeError Instr :=
  if cw.extractLsb' 0 8 = 0 then .ok (mk (cw.extractLsb' 16 8) (cw.extractLsb' 8 8)) else .error .mustBeZero

/-- Format V: RG in `cw[23:16]`, CODE16 in `cw[15:0]` (R95). -/
def formatV (cw : HostWord) (mk : Code → Byte → Instr) : Except DecodeError Instr :=
  .ok (mk (cw.extractLsb' 0 16) (cw.extractLsb' 16 8))

/-- A host command word (R91, R96, R103). -/
def decodeHost (cw : HostWord) : Except DecodeError Instr :=
  if cw.extractLsb' 24 4 = (0 : BitVec 4) then
    match (cw.extractLsb' 28 4).toNat with
    | 1 => formatN cw .reset
    | 2 => formatN cw .powerOnAll
    | 3 => formatCR cw .setRange
    | 4 => formatC cw .getRange
    | 5 => formatN cw .enterScan
    | 6 => formatC cw .readCh
    | 7 => formatN cw .scanAll
    | 8 => formatN cw .getCodes
    | 9 => formatV cw .toVoltage
    | _ => .error .reservedOp
  else .error .reservedBits

/-! ## Transport requests -/

/-- A transport request word (R106). A TRANSACT with WSEL = 11 is a TRANSACT, answered by R132. -/
def decodeRequest (rq : RequestWord) : Except DecodeError Instr :=
  if rq.extractLsb' 34 1 = (0 : BitVec 1) then .ok (.transact (rq.extractLsb' 32 2) (rq.extractLsb' 0 32))
  else if rq.extractLsb' 32 2 = (1 : BitVec 2) ∧ rq.extractLsb' 15 17 = (0 : BitVec 17) then
    .ok (.writeReg (rq.extractLsb' 8 7) (rq.extractLsb' 0 8))
  else .error .malformedWriteReg

/-! ## Wire frames -/

/-- The channels in ascending order. -/
def channels : List Chan := [0, 1, 2, 3, 4, 5, 6, 7]

/-- The channel whose select command `cmd` is, if any (R111). -/
def Config.manChOf (c : Config) (cmd : BitVec 16) : Option Chan :=
  channels.find? fun n => c.opcManCh[n] == cmd

/-- A 32-bit frame: a device command word above sixteen zeros (R108, R111). -/
def decodeCommandFrame (c : Config) (tx : TxWord) : Except DecodeError Instr :=
  let cmd := tx.extractLsb' 16 16
  if tx.extractLsb' 0 16 = (0 : BitVec 16) then
    if cmd = c.opcNoOp then .ok .wNoOp
    else if cmd = c.opcRst then .ok .wRst
    else if cmd = c.opcAutoRst then .ok .wAutoRst
    else match c.manChOf cmd with
      | some n => .ok (.wManCh n)
      | none => .error .unknownCommand
  else .error .unknownCommand

/-- The channel whose range register `a` is, if any (R61). -/
def Config.rangeChOf (c : Config) (a : BitVec 7) : Option Chan :=
  channels.find? fun n => c.rangeReg n == a

/-- A 24-bit frame that writes `v` to program register `a`: the specific row where one matches,
else W.WR (R112). -/
def regWriteRow (c : Config) (a : BitVec 7) (v : Byte) : Instr :=
  if c.isAutoSeqEnFrame a v then .wWrAutoSeqEn
  else if c.isChPwrDnFrame a v then .wWrChPwrDn
  else match c.rangeChOf a with
    | some n => .wWrRange n v
    | none => .wWr a v

/-- A 24-bit frame is a register write when `tx & 0x0100FF = 0x010000` (R112). -/
def decodeRegisterFrame (c : Config) (tx : TxWord) : Except DecodeError Instr :=
  if tx.extractLsb' 24 8 = (0 : BitVec 8) ∧ tx.extractLsb' 16 1 = (1 : BitVec 1) ∧ tx.extractLsb' 0 8 = (0 : BitVec 8) then
    .ok (regWriteRow c (tx.extractLsb' 17 7) (tx.extractLsb' 8 8))
  else .error .notARegisterWrite

/-- A frame of the wire; its format is its width (R112, R114). -/
def decodeFrame (c : Config) (w : Width) (tx : TxWord) : Except DecodeError Instr :=
  match w with
  | .w32 => decodeCommandFrame c tx
  | .w24 => decodeRegisterFrame c tx
  | .w16 => .error .noSuchFormat

/-- The decoder of the three levels (R90). -/
def decode (c : Config) : Packet → Except DecodeError Instr
  | .host cw => decodeHost cw
  | .request rq => decodeRequest rq
  | .frame w tx => decodeFrame c w tx

/-! ## The encoder -/

/-- A host word from its operation code and its 24-bit operand part (R91). -/
def hostWord (op : BitVec 4) (operands : BitVec 24) : HostWord := op ++ (0 : BitVec 4) ++ operands

/-- The request word `{KIND, WSEL, PAYLOAD}` (R106). -/
def requestWord (kind : BitVec 1) (wsel : BitVec 2) (payload : BitVec 32) : RequestWord :=
  kind ++ wsel ++ payload

/-- The packet of an instruction (R92 to R96, R106, R111, R112). -/
def encode (c : Config) : Instr → Packet
  | .reset => .host (hostWord 1 0)
  | .powerOnAll => .host (hostWord 2 0)
  | .setRange ch rg => .host (hostWord 3 (ch ++ rg ++ (0 : BitVec 8)))
  | .getRange ch => .host (hostWord 4 (ch ++ (0 : BitVec 16)))
  | .enterScan => .host (hostWord 5 0)
  | .readCh ch => .host (hostWord 6 (ch ++ (0 : BitVec 16)))
  | .scanAll => .host (hostWord 7 0)
  | .getCodes => .host (hostWord 8 0)
  | .toVoltage code rg => .host (hostWord 9 (rg ++ code))
  | .transact wsel payload => .request (requestWord 0 wsel payload)
  | .writeReg a v => .request (requestWord 1 1 ((0 : BitVec 17) ++ a ++ v))
  | .wNoOp => .frame .w32 (cmdFrame c.opcNoOp)
  | .wRst => .frame .w32 (cmdFrame c.opcRst)
  | .wAutoRst => .frame .w32 (cmdFrame c.opcAutoRst)
  | .wManCh0 => .frame .w32 (cmdFrame c.opcManCh[0])
  | .wManCh1 => .frame .w32 (cmdFrame c.opcManCh[1])
  | .wManCh2 => .frame .w32 (cmdFrame c.opcManCh[2])
  | .wManCh3 => .frame .w32 (cmdFrame c.opcManCh[3])
  | .wManCh4 => .frame .w32 (cmdFrame c.opcManCh[4])
  | .wManCh5 => .frame .w32 (cmdFrame c.opcManCh[5])
  | .wManCh6 => .frame .w32 (cmdFrame c.opcManCh[6])
  | .wManCh7 => .frame .w32 (cmdFrame c.opcManCh[7])
  | .wWr a v => .frame .w24 (regFrame a v)
  | .wWrAutoSeqEn => .frame .w24 (regFrame c.regAutoSeqEn c.seqEnAll)
  | .wWrChPwrDn => .frame .w24 (regFrame c.regChPwrDn 0)
  | .wWrRange0 v => .frame .w24 (regFrame (c.rangeReg 0) v)
  | .wWrRange1 v => .frame .w24 (regFrame (c.rangeReg 1) v)
  | .wWrRange2 v => .frame .w24 (regFrame (c.rangeReg 2) v)
  | .wWrRange3 v => .frame .w24 (regFrame (c.rangeReg 3) v)
  | .wWrRange4 v => .frame .w24 (regFrame (c.rangeReg 4) v)
  | .wWrRange5 v => .frame .w24 (regFrame (c.rangeReg 5) v)
  | .wWrRange6 v => .frame .w24 (regFrame (c.rangeReg 6) v)
  | .wWrRange7 v => .frame .w24 (regFrame (c.rangeReg 7) v)

/-- The host word of an operation (0, an illegal word, for the rows of the other two levels). -/
def hostWordOf (i : Instr) : HostWord :=
  match encode Config.default i with
  | .host cw => cw
  | _ => 0

/-! ## A bare table word -/

/-- The packet a bare number of `nbits` bits is read as: 24 bits a register frame; 32 bits a host word
where it is a legal one or no frame either, else a command frame (no legal host word of R96 is a frame
of R111 at the default parameters); 33 to 40 bits a transport request (35 bits in whole bytes). -/
def packetOfTableWord (c : Config) (nbits w : Nat) : Option Packet :=
  if nbits = 24 then if w < 2 ^ 24 then some (.frame .w24 (BitVec.ofNat 32 w)) else none
  else if nbits = 32 then
    if w < 2 ^ 32 then
      match decodeHost (BitVec.ofNat 32 w), decodeCommandFrame c (BitVec.ofNat 32 w) with
      | .error _, .ok _ => some (.frame .w32 (BitVec.ofNat 32 w))
      | _, _ => some (.host (BitVec.ofNat 32 w))
    else none
  else if 33 ≤ nbits ∧ nbits ≤ 40 then
    if w < 2 ^ 35 then some (.request (BitVec.ofNat 35 w)) else none
  else none

/-- The instruction the decoder reads from a table word, at the table's parameters (the defaults). -/
def decodeTableWord (nbits w : Nat) : Option Instr :=
  match packetOfTableWord Config.default nbits w with
  | some p => (decode Config.default p).toOption
  | none => none

end Sys2Proof
end

