-- ==== Sys2Proof/Machine/State.lean ====
section
/-! DEFINITION. The state of IDL-ADCIF and of the environment its rules mention, as plain data (R20 to
R47), the reasons a step can stop, and the state after hardware reset (R45, R340). -/

namespace Sys2Proof.Machine

open Sys2Proof

/-! ## Names of R20 to R35 -/

/-- `drv_state` (R21). -/
inductive DrvState where
  | uninitialized
  | resetting
  | configuring
  | ready
  deriving DecidableEq, Repr

/-- `buf_lock` (R29). -/
inductive BufLock where
  | free
  | producer
  | consumer
  deriving DecidableEq, Repr

/-- `cs`, the logical chip-select (R31). -/
inductive CsLine where
  | deasserted
  | asserted
  deriving DecidableEq, Repr

/-- `ft_state` (R32). -/
inductive FtState where
  | idle
  | shift
  | settle
  deriving DecidableEq, Repr

/-- The strap STRATEGY (R28). -/
inductive Strategy where
  | manual
  | autoSeq
  deriving DecidableEq, Repr

/-- The strap CS_IMPL (R28). -/
inductive CsImpl where
  | hwCs
  | swGpioCs
  deriving DecidableEq, Repr

/-- The strap BIPOLAR_CODING (R28, R238). -/
inductive BipolarCoding where
  | twosComplement
  | offsetBinary
  deriving DecidableEq, Repr

/-- The status codes; "4 to 7 are never produced" (R101). -/
inductive Status where
  | ok
  | notInitialized
  | invalidArgument
  | busFault
  deriving DecidableEq, Repr

/-- The command ports: P of the owner, C of the consumer (R37, R38). -/
inductive Port where
  | P
  | C
  deriving DecidableEq, Repr

/-- The two transport requests (R130). -/
inductive ReqKind where
  | transact
  | writeReg
  deriving DecidableEq, Repr

/-! ## Records -/

/-- The configuration straps, sampled at hardware reset (R28, R340). -/
structure Straps where
  strategy : Strategy
  csImpl   : CsImpl
  coding   : BipolarCoding
  deriving DecidableEq, Repr

/-- The response record of 139 bits (R100). -/
structure Response where
  status : Status
  vmask  : BitVec 8
  data   : BitVec 128
  deriving DecidableEq, Repr

/-- The reply of FT to a request, `(status, rx[31:0])` (R106). -/
structure FtReply where
  status : Status
  rx     : BitVec 32
  deriving DecidableEq, Repr

/-- The outcome of a transaction as `EvFrame` records it (R14). -/
inductive FrameOut where
  | rxOk (rx : BitVec 32)
  | fault
  deriving DecidableEq, Repr

/-- The events of R14. `snapshot` also records the port that took the snapshot (log 22). -/
inductive Event where
  | op (p : Port) (cw : HostWord)
  | csDeassert
  | delay (t : Time)
  | frame (w : Width) (tx : TxWord) (out : FrameOut)
  | refused (w : Width) (tx : TxWord)
  | commit (codes : Vector Code 8) (valid : BitVec 8)
  | snapshot (p : Port) (codes : Vector Code 8) (valid : BitVec 8)
  | resp (p : Port) (r : Response)
  deriving DecidableEq, Repr

/-- The state of FT (R31 to R35). `kind`, `acts` and `pulses` are the model's own (log 3, log 18). -/
structure Ft where
  cs        : CsLine
  state     : FtState
  w         : Width
  shTx      : BitVec 32
  shRx      : BitVec 32
  bitcnt    : Nat
  err       : Bool
  settleCnt : Nat
  mosi      : Bool
  /-- Which request is in progress, hence which reply is owed. -/
  kind      : ReqKind
  /-- Whether DEV acted on the frame in progress should it fault (93 U14). -/
  acts      : Bool
  /-- `sclk` pulses made in the last chip-select window (R146). -/
  pulses    : Nat
  deriving DecidableEq, Repr

/-- `d_mode` of the ADC (R261). -/
inductive DevMode where
  | idle
  | man (n : Chan)
  | auto (n : Chan)
  deriving DecidableEq, Repr

/-- Which codes the ADC's conversions give, `sample(n, i)` of R261: not fixed (log 17), one code for
every channel, or the channel in the top nibble above the frame index (spec/95 V5). -/
inductive Sampler where
  | free
  | const (code : Code)
  | tagged
  deriving DecidableEq, Repr

/-- The state of DEV, the ADC (R41, R261). `pr` is the address space PR of R60: the listed program
registers in the canonical form of `Memory.wf`. -/
structure Dev where
  pr      : List Host.Cell
  mode    : DevMode
  pending : Option Code
  /-- The number of frames received, so the index of the next one (R261). -/
  frames  : Nat
  sampler : Sampler
  deriving DecidableEq, Repr

/-- What SCHED reports: an overrun (R285), the status of a failed scan (R283), or the response at which
the startup sequence stopped (R116). -/
inductive SchedReport where
  | deadlineMissed (overrun : Time)
  | scanFailed (st : Status)
  | initFailed (st : Status)
  deriving DecidableEq, Repr

/-- The state of SCHED (R280), but for `period`, which is the parameter SAMPLE_PERIOD; `reports` is its
notification channel, oldest first. -/
structure Sched where
  /-- SCHED has brought the block to `Ready` and set its first deadline (R281). -/
  started  : Bool
  deadline : Time
  missed   : Nat
  reports  : List SchedReport
  deriving DecidableEq, Repr

/-! ## What the environment supplies -/

/-- BUS's and DEV's answer to one transaction, two draws in one (R140). -/
inductive BusAnswer where
  /-- `bus_ready = 0` at acceptance (R133). -/
  | notReady
  /-- The frame completes and `rx` is received, whatever DEV's contract says (R250). -/
  | answer (rx : BitVec 32)
  /-- The frame completes and DEV answers by R251 to R262; bits R262 calls a draw are `noise`'s. -/
  | device (noise : BitVec 32)
  /-- `bus_err` in the shift step that finds `bitcnt = bits`, `rx` holding the bits received before;
  `acts` says whether DEV acted on the frame all the same (R136, 93 U14). -/
  | fault (rx : BitVec 32) (bits : Nat) (acts : Bool)
  /-- The bus is ready and the frame is taken bit by bit, from `lineIn` (R141 to R145). -/
  | bitwise
  deriving DecidableEq, Repr

/-- What BUS supplies in one step of the bit-level engine: a bit with `bus_err` (R142), or an idle step
between two bytes with `bus_err` (R145). `acts` is read with `err` only (93 U14). -/
inductive LineSample where
  | bit (miso err acts : Bool)
  | gap (err acts : Bool)
  deriving DecidableEq, Repr

/-- What happens beside one micro-step of SEQ or one step of FT: nothing, words of port C taken before it
or after it, in order (R79, R80, R362), or hardware reset, which comes in its stead with the strap pins at
its release (R340). -/
inductive Slot where
  | quiet
  | before (cws : List HostWord)
  | after (cws : List HostWord)
  | rst (k : Straps)
  deriving DecidableEq, Repr

/-- What the environment does next. -/
inductive Input where
  /-- SCHED presents a word on port P (R37). -/
  | portP (cw : HostWord)
  /-- CONS presents a word on port C (R38). -/
  | portC (cw : HostWord)
  /-- A bench drives FT's request interface (R106; log 10). -/
  | request (rq : RequestWord)
  /-- A bench has FT put a frame on the wire (R90; log 10). -/
  | frame (w : Width) (tx : TxWord)
  /-- Hardware reset, with the strap pins at its release (R340). -/
  | rst (k : Straps)
  /-- SCHED brings the block to `Ready` by INIT and starts, with TMR's answer to `now()` (R281). -/
  | startup (ranges : Vector Byte 8) (now : Time)
  /-- SCHED's start, with TMR's answer to `now()` (R281). -/
  | schedStart (now : Time)
  /-- One iteration of SCHED, with TMR's answer in step 3 and the time its sleep ends; by SCAN8 where
  `scan8` (R282, R222). -/
  | iterate (scan8 : Bool) (now wake : Time)
  /-- SCHED looks at the last response and reports a failed scan (R283). -/
  | report
  /-- Steps 2 to 5 of SCHED's iteration (R282). -/
  | finish (now wake : Time)
  /-- A task calls TMR's `sleepMicros(n)`, which returns at `wake` if that is not too early (R322). -/
  | sleepMicros (n : Nat) (wake : Time)
  /-- The owner issues words one after the other and stops at the first response that is not `Ok`
  (INIT of R116); `fresh` until the first word has been issued. -/
  | script (fresh : Bool) (ws : List HostWord)
  deriving DecidableEq, Repr

/-! ## The state -/

/-- The whole machine: the block (SEQ, FT, the ports), its configuration, the environment state the
rules mention, and the inputs the environment has queued. -/
structure State where
  -- SEQ (R21 to R30)
  drvState  : DrvState
  range     : Vector Byte 8
  code      : Vector Code 8
  valid     : BitVec 8
  stage     : Vector Code 8
  svalid    : BitVec 8
  autoArmed : Bool
  busy      : Bool
  curCw     : HostWord
  curStatus : Status
  /-- `k` of `seq_pc = (op, k)`; `op` is `curCw[31:28]` (R30). -/
  seqK      : Nat
  bufLock   : BufLock
  -- FT (R31 to R35)
  ft        : Ft
  -- configuration (R8 to R10, R28)
  straps    : Straps
  cfg       : Config
  -- outputs, "presented for one step" (R37, R38, R106)
  pResp     : Option Response
  cResp     : Option Response
  ftReply   : Option FtReply
  -- history (R14), oldest event first
  hist      : List Event
  -- the model's own
  /-- The port whose word is being executed (log 10). -/
  port      : Port
  /-- FT works for a bench, which stands in SEQ's place (log 19). -/
  bench     : Bool
  /-- The number of writes of the codes buffer so far (log 6). -/
  epoch     : Nat
  -- environment state (R41 to R43)
  dev       : Dev
  sched     : Sched
  now       : Time
  -- environment inputs
  inbox     : List Input
  slots     : List Slot
  busIn     : List BusAnswer
  lineIn    : List LineSample
  deriving DecidableEq, Repr

/-! ## Why a step stops -/

/-- The machine's faults. -/
inductive Fault where
  /-- Raised by `step` when an operation is in progress whose `(op, k)` is no step of any operation
  of 41 and 42 (R30). No run reaches such a state; safe. -/
  | noSuchStep
  deriving DecidableEq, Repr

/-- Why the model gives no meaning. -/
inductive Refusal where
  /-- Raised by `exec`'s arm of an instruction without a meaning (none is left); safe. -/
  | notModelled (mnemonic : String)
  /-- Raised by `step` when the parameter set breaks R8 or R11: "A parameter set that breaks a
  constraint is refused (the model has no meaning for it)"; safe. -/
  | illegalParameters
  deriving DecidableEq, Repr

/-! ## Reset -/

/-- FT after hardware reset (R31 to R34, R340). `w`, `shTx`, `shRx` are unspecified there (log 3). -/
def Ft.reset : Ft where
  cs := .deasserted
  state := .idle
  w := .w16
  shTx := 0
  shRx := 0
  bitcnt := 0
  err := false
  settleCnt := 0
  mosi := false
  kind := .transact
  acts := false
  pulses := 0

/-- The straps of `State.reset`: BIPOLAR_CODING at its normative default, the two others DESIGN CHOICE
(log 4). Statements quantify over all straps. -/
def Straps.default : Straps where
  strategy := .manual
  csImpl := .hwCs
  coding := .twosComplement

/-- DEV in DEVREF's initial state (R261, log 15); hardware reset does not reset it (R342). -/
def Dev.initial : Dev where
  pr := []
  mode := .idle
  pending := none
  frames := 0
  sampler := .free

/-- SCHED before its start (log 21). -/
def Sched.initial : Sched where
  started := false
  deadline := 0
  missed := 0
  reports := []

/-- The machine right after hardware reset, with nothing queued by the environment (R45, R340). The
values of `code`, `stage`, `curCw`, `curStatus`, `seqK` are unspecified there (log 1, log 2). -/
def State.reset : State where
  drvState := .uninitialized
  range := Vector.replicate 8 0
  code := Vector.replicate 8 0
  valid := 0
  stage := Vector.replicate 8 0
  svalid := 0
  autoArmed := false
  busy := false
  curCw := 0
  curStatus := .ok
  seqK := 0
  bufLock := .free
  ft := Ft.reset
  straps := Straps.default
  cfg := Config.default
  pResp := none
  cResp := none
  ftReply := none
  hist := []
  port := .P
  bench := false
  epoch := 0
  dev := Dev.initial
  sched := Sched.initial
  now := 0
  inbox := []
  slots := []
  busIn := []
  lineIn := []

end Sys2Proof.Machine
end

