-- ==== Sys2Proof/Machine/Memory.lean ====
section
/-! DEFINITION. The address space PR, the ADC's program registers (R60): 128 addresses of 8 bits, held
as a list of cells in one canonical form. -/

namespace Sys2Proof.Machine

open Sys2Proof

/-- The number of addresses of PR: "7 bits, 0x00..0x7F" (R60). -/
def Memory.size : Nat := 128

/-- What an unlisted address of PR reads as: its power-up value (R261). Every channel's range register
"default on power-up" 0x00 (R41), channel power-down 0x00, auto-sequence-enable 0xFF (log 15). -/
def Memory.unlisted (c : Config) (a : Nat) : Byte :=
  if a = c.regAutoSeqEn.toNat then 0xFF else 0x00

/-- The byte at an address of PR. -/
def Memory.read (c : Config) : List Host.Cell → Nat → Byte
  | [], a => Memory.unlisted c a
  | (b, v) :: m, a => if a = b then v else Memory.read c m a

/-- `cell` put before `m`, unless it holds what an unlisted address reads as. -/
def Memory.put (c : Config) (a : Nat) (v : Byte) (m : List Host.Cell) : List Host.Cell :=
  if v = Memory.unlisted c a then m else (a, v) :: m

/-- The byte `v` stored at address `a`, canonical form kept (R256). -/
def Memory.write (c : Config) : List Host.Cell → Nat → Byte → List Host.Cell
  | [], a, v => Memory.put c a v []
  | (b, u) :: m, a, v =>
    if a < b then Memory.put c a v ((b, u) :: m)
    else if a = b then Memory.put c a v m
    else (b, u) :: Memory.write c m a v

/-- The canonical form from address `lo` on: addresses strictly rising and inside PR, no entry equal to
what an unlisted address reads as. -/
def Memory.wfFrom (c : Config) : Nat → List Host.Cell → Bool
  | _, [] => true
  | lo, (a, v) :: m =>
    decide (lo ≤ a) && decide (a < Memory.size) && (v != Memory.unlisted c a) && Memory.wfFrom c (a + 1) m

/-- The canonical form of PR. -/
def Memory.wf (c : Config) (m : List Host.Cell) : Bool := Memory.wfFrom c 0 m

end Sys2Proof.Machine
end

