-- ==== Sys2Proof/Machine/Dev.lean ====
section
/-! DEFINITION. DEV, the ADC on the far side of the bus: what it does with each frame it receives and
what it returns (R251 to R263). Nothing here decides what the block does: to SEQ and FT every receive
word is a draw (R250). -/

namespace Sys2Proof.Machine

open Sys2Proof

/-- The byte of program register `a`. -/
def Dev.reg (c : Config) (d : Dev) (a : BitVec 7) : Byte := Memory.read c d.pr a.toNat

/-- `d_range[n]`, the active range of channel `n` (R258, R261). -/
def Dev.range (c : Config) (d : Dev) (n : Chan) : Byte := d.reg c (c.rangeReg n)

/-- A channel is "in sequence" when it is enabled and not powered down (R262). -/
def Dev.inSequence (c : Config) (d : Dev) (n : Chan) : Bool :=
  (d.reg c c.regAutoSeqEn).getLsbD n.val && !(d.reg c c.regChPwrDn).getLsbD n.val

/-- The lowest channel in sequence (R254, R262). -/
def Dev.lowest (c : Config) (d : Dev) : Option Chan := channels.find? fun n => d.inSequence c n

/-- The lowest channel in sequence above `n`, or, if none, the lowest in sequence (R262). -/
def Dev.after (c : Config) (d : Dev) (n : Chan) : Option Chan :=
  match channels.find? fun m => decide (n < m) && d.inSequence c m with
  | some m => some m
  | none => d.lowest c

/-- `sample(n, i)`: the code of the conversion of channel `n` that frame `i` starts (R261). -/
def Dev.sample (d : Dev) (n : Chan) : Code :=
  match d.sampler with
  | .free => Config.conversion n.val d.frames
  | .const code => code
  | .tagged => BitVec.ofNat 16 (n.val * 4096) ||| BitVec.ofNat 16 d.frames

/-- The conversion of channel `n` is started in mode `m`. -/
def Dev.convert (d : Dev) (m : DevMode) (n : Chan) : Dev := { d with mode := m, pending := some (d.sample n) }

/-- No conversion is started and no mode is left. -/
def Dev.toIdle (d : Dev) : Dev := { d with mode := .idle, pending := none }

/-- W.NO_OP (R252): the same channel again in manual mode, the next channel in auto-sequence mode,
nothing otherwise. With no channel left in sequence the mode is left (log 16). -/
def Dev.noOp (c : Config) (d : Dev) : Dev :=
  match d.mode with
  | .man n => d.convert (.man n) n
  | .auto n => match d.after c n with
    | some m => d.convert (.auto m) m
    | none => d.toIdle
  | .idle => { d with pending := none }

/-- W.RST (R253): registers back to power-up, no mode, nothing pending. -/
def Dev.rst (d : Dev) : Dev := { d with pr := [], mode := .idle, pending := none }

/-- W.AUTO_RST (R254): auto-sequence mode at the lowest channel in sequence. -/
def Dev.autoRst (c : Config) (d : Dev) : Dev :=
  match d.lowest c with
  | some n => d.convert (.auto n) n
  | none => d.toIdle

/-- W.MAN_CHn (R255). -/
def Dev.manCh (n : Chan) (d : Dev) : Dev := d.convert (.man n) n

/-- W.WR (R256 to R259): the register is stored; the result pipeline may be disturbed (R69, R262). -/
def Dev.write (c : Config) (a : BitVec 7) (v : Byte) (d : Dev) : Dev :=
  { d with pr := Memory.write c d.pr a.toNat v, pending := none }

/-- A command frame whose command DEV does not know (R262, "otherwise"). -/
def Dev.unknown (d : Dev) : Dev := { d with pending := none }

/-- What DEV does with a command frame, by CMD16 (R262). -/
def Dev.command (c : Config) (cmd : BitVec 16) (d : Dev) : Dev :=
  if cmd = c.opcRst then d.rst
  else if cmd = c.opcAutoRst then d.autoRst c
  else if cmd = c.opcNoOp then d.noOp c
  else match c.manChOf cmd with
    | some n => d.manCh n
    | none => d.unknown

/-- What DEV does with a frame it receives whole (R262): a command, a register write, or no change. -/
def Dev.act (c : Config) (w : Width) (tx : TxWord) (d : Dev) : Dev :=
  match w with
  | .w32 => d.command c (tx.extractLsb' 16 16)
  | .w24 => if tx.extractLsb' 16 1 = (1 : BitVec 1) then d.write c (tx.extractLsb' 17 7) (tx.extractLsb' 8 8) else d
  | .w16 => d

/-- DEV after a frame it receives; the frame is counted (R261). -/
def Dev.receive (c : Config) (w : Width) (tx : TxWord) (d : Dev) : Dev :=
  { d.act c w tx with frames := d.frames + 1 }

/-- The bits DEV returns on a frame: RESULT16 in the low half of a command frame is the pending
conversion, "the conversion result belonging to the *previous* command" (R251); every other bit is a
draw, taken from `noise` (R262). -/
def Dev.returns (d : Dev) (w : Width) (noise : BitVec 32) : BitVec 32 :=
  match w, d.pending with
  | .w32, some code => noise.extractLsb' 16 16 ++ code
  | _, _ => noise

end Sys2Proof.Machine
end

