-- ==== Sys2Proof/Machine/Flags.lean ====
section
/-! DEFINITION. The status flags (R39): the derived ones, the per-channel flag words VALID and SVALID,
the numbers of the named values, and the pins derived from the state. -/

namespace Sys2Proof.Machine

open Sys2Proof

/-! ## Numbers of the named values -/

/-- The number of a driver state (R21). -/
def DrvState.toBits : DrvState → BitVec 2
  | .uninitialized => 0
  | .resetting => 1
  | .configuring => 2
  | .ready => 3

/-- The number of a lock state (R29). -/
def BufLock.toBits : BufLock → BitVec 2
  | .free => 0
  | .producer => 1
  | .consumer => 2

/-- The number of a state of FT (R32). -/
def FtState.toBits : FtState → BitVec 2
  | .idle => 0
  | .shift => 1
  | .settle => 2

/-- The status code of the response (R101). -/
def Status.toBits : Status → BitVec 3
  | .ok => 0
  | .notInitialized => 1
  | .invalidArgument => 2
  | .busFault => 3

/-- The strap levels (R28). Their order in one word is the model's DESIGN CHOICE (log 35). -/
def Straps.toBits (k : Straps) : BitVec 3 :=
  BitVec.ofBool (k.coding == .offsetBinary) ++ BitVec.ofBool (k.csImpl == .swGpioCs)
    ++ BitVec.ofBool (k.strategy == .autoSeq)

/-- The response record as its 139 bits. R100 gives the three widths and no positions; that status stands
above vmask above data is the model's DESIGN CHOICE (log 35). -/
def Response.toBits (r : Response) : BitVec 139 := r.status.toBits ++ r.vmask ++ r.data

/-! ## Derived flags and pins -/

/-- `initialized`: "`initialized = 1` exactly when `drv_state = Ready`" (R22). -/
def State.initialized (s : State) : Bool := s.drvState == .ready

/-- `p_ready`: "exactly when `busy = 0`" (R37). -/
def State.pReady (s : State) : Bool := !s.busy

/-- `c_ready`: "Port C is always ready" (R38). -/
def State.cReady (_ : State) : Bool := true

/-- `op` of `seq_pc` (R30). -/
def State.seqOpCode (s : State) : BitVec 4 := s.curCw.extractLsb' 28 4

/-- The pin `cs_n`: CS_ACTIVE_LEVEL when asserted, else its complement (R31). -/
def State.csN (s : State) : Bool :=
  match s.ft.cs with
  | .asserted => s.cfg.csActiveLevel
  | .deasserted => !s.cfg.csActiveLevel

/-- The pin `sclk` between pulses: the idle level that SPI_MODE fixes, low at the default (R35, R146). That
bit 1 of SPI_MODE is the polarity and 1 idles high is PRESUMED (log 36). -/
def State.sclkIdle (s : State) : Bool := s.cfg.spiMode.getLsbD 1

/-! ## Flag words -/

/-- A flag word with flag `c` set. -/
def setFlag (v : BitVec 8) (c : Chan) : BitVec 8 := v ||| (1 : BitVec 8) <<< c.val

/-- A flag word with flag `c` cleared. -/
def clearFlag (v : BitVec 8) (c : Chan) : BitVec 8 := v &&& ~~~((1 : BitVec 8) <<< c.val)

/-- Flag `c` of a flag word. -/
def flag (v : BitVec 8) (c : Chan) : Bool := v.getLsbD c.val

end Sys2Proof.Machine
end

