-- ==== Sys2Proof/Machine/Operands.lean ====
section
/-! DEFINITION. Operands and results: the legality of channels and range codes, the lanes of a
response, and the arithmetic of CVT (R97, R100, R102, R231 to R240). -/

namespace Sys2Proof.Machine

open Sys2Proof

/-! ## Operand checks (R105) -/

/-- A channel operand, legal when `ch ≤ 7`. -/
def chan? (ch : Byte) : Option Chan := if h : ch.toNat < 8 then some ⟨ch.toNat, h⟩ else none

/-- A range operand is legal for SET_RANGE when `rg ≤ 6` (R7, R175). -/
def legalRange (rg : Byte) : Bool := decide (rg.toNat ≤ 6)

/-- RANGE_DEFAULT, "the widest bipolar span" (R7). -/
def rangeDefault : Byte := 0x00

/-- PWR_ALL_ON, "write 0x00 = all on" (R7). -/
def pwrAllOn : Byte := 0x00

/-! ## Responses (R100 to R102) -/

/-- Eight lanes as the 128 bits of `data`; lane c is `data[16c+15 : 16c]` (R100). -/
def packLanes (v : Vector Code 8) : BitVec 128 :=
  v[7] ++ v[6] ++ v[5] ++ v[4] ++ v[3] ++ v[2] ++ v[1] ++ v[0]

/-- Lane c of `data` (R100). -/
def laneOf (data : BitVec 128) (c : Chan) : Code := data.extractLsb' (16 * c.val) 16

/-- An `Ok` response with a mask and data. -/
def Response.okWith (vmask : BitVec 8) (data : BitVec 128) : Response := ⟨.ok, vmask, data⟩

/-- An `Ok` response without data (R102). -/
def Response.plain : Response := ⟨.ok, 0, 0⟩

/-- An `Ok` response with a scalar, right-aligned (R100). -/
def Response.scalar {n : Nat} (x : BitVec n) : Response := ⟨.ok, 0, x.setWidth 128⟩

/-- A response that carries an error: "When status is not `Ok`, `data` is 0 and `vmask` is 0" (R102). -/
def Response.error (st : Status) : Response := ⟨st, 0, 0⟩

/-! ## CVT (R231 to R240) -/

/-- The range code CVT converts under: an out-of-range code "clamps to the widest bipolar span" (R233). -/
def cvtRange (rg : Byte) : Nat := if rg.toNat ≤ 6 then rg.toNat else 0

/-- `BIPOLAR(r) = (r ≤ 4)` (R36). -/
def bipolar (r : Nat) : Bool := decide (r ≤ 4)

/-- `SHIFT[0..6] = 4, 3, 2, 1, 0, 3, 2` (R36, R236). -/
def shiftOf : Nat → Nat
  | 0 => 4
  | 1 => 3
  | 2 => 2
  | 3 => 1
  | 4 => 0
  | 5 => 3
  | 6 => 2
  | _ => 4

/-- `FS[0..6]` in volts (R7, R234). -/
def fullScale : Nat → Rat
  | 0 => 1024 / 100
  | 1 => 512 / 100
  | 2 => 256 / 100
  | 3 => 128 / 100
  | 4 => 64 / 100
  | 5 => 1024 / 100
  | 6 => 512 / 100
  | _ => 1024 / 100

/-- The number `n` a code stands for under a range: signed for a bipolar one, or `unsigned − 32768`
where BIPOLAR_CODING is OffsetBinary; unsigned for a unipolar one (R232, R238). -/
def codeValue (k : BipolarCoding) (code : Code) (r : Nat) : Int :=
  if bipolar r then
    match k with
    | .twosComplement => code.toInt
    | .offsetBinary => (code.toNat : Int) - 32768
  else (code.toNat : Int)

/-- `vq = n << SHIFT[r]`, the voltage in units of 1/51200 V (R231, R236). -/
def voltageQ (k : BipolarCoding) (code : Code) (rg : Byte) : Int :=
  codeValue k code (cvtRange rg) * 2 ^ shiftOf (cvtRange rg)

/-- `V`, the exact rational the source defines (R231, R235). -/
def voltage (k : BipolarCoding) (code : Code) (rg : Byte) : Rat :=
  let r := cvtRange rg
  (codeValue k code r : Rat) / (if bipolar r then 32768 else 65536) * fullScale r

/-- The response of TO_VOLTAGE: `data[31:0] = vq` as 32-bit two's complement (R102, R231). -/
def voltageResponse (k : BipolarCoding) (code : Code) (rg : Byte) : Response :=
  Response.scalar (BitVec.ofInt 32 (voltageQ k code rg))

end Sys2Proof.Machine
end

