-- ==== Sys2Proof/Machine/Ops.lean ====
section
/-! DEFINITION. The named operations the meanings are written with: events, acceptance and response,
the three errors, the codes buffer and its lock, hardware reset. -/

namespace Sys2Proof.Machine

open Sys2Proof

/-! ## Events, position -/

/-- An event joins the history (R14). -/
def State.emit (s : State) (e : Event) : State := { s with hist := s.hist ++ [e] }

/-- `seq_pc <- (op, k)` (R30). -/
def State.goto (s : State) (k : Nat) : State := { s with seqK := k }

/-! ## Acceptance and response -/

/-- A word is accepted on port P: `busy <- 1`, `cur_cw <- cw`, `seq_pc <- (OP, 0)`, `EvOp` (R162). -/
def State.acceptP (s : State) (cw : HostWord) : State :=
  { s with busy := true, curCw := cw, seqK := 0 }.emit (.op .P cw)

/-- The response on port P, the last step of every operation: `EvResp`, `busy <- 0` (R165). -/
def State.respondP (s : State) (r : Response) : State :=
  { s with busy := false, curStatus := r.status, pResp := some r }.emit (.resp .P r)

/-- The response on port C; nothing of SEQ is touched (R38). -/
def State.respondC (s : State) (r : Response) : State := { s with cResp := some r }.emit (.resp .C r)

/-- Responses and replies are "presented for one step" (R37). -/
def State.clearOutputs (s : State) : State := { s with pResp := none, cResp := none, ftReply := none }

/-! ## Errors: taking one ends the operation (R300, R310 to R315) -/

/-- An error ends the operation in progress: its response carries the status, nothing else is written
(R310, R311). There is no handler and no return (R315). -/
def State.raise (s : State) (st : Status) : State := s.respondP (Response.error st)

/-- `BusFault` in a configuration operation: `drv_state <- Uninitialized`, `auto_armed <- 0`, then the
response (R163, R312). -/
def State.raiseConfigFault (s : State) : State :=
  { s with drvState := .uninitialized, autoArmed := false }.raise .busFault

/-- An illegal word, or an operation port C does not allow, on port C (R103, R104). -/
def State.refuseC (s : State) (cw : HostWord) : State :=
  (s.emit (.op .C cw)).respondC (Response.error .invalidArgument)

/-- An illegal word on port P: accepted, answered at once with `InvalidArgument` (R103). -/
def State.refuseP (s : State) (cw : HostWord) : State := (s.acceptP cw).raise .invalidArgument

/-- An illegal encoding on a port (R103). -/
def State.illegalWord (s : State) (p : Port) (cw : HostWord) : State :=
  match p with
  | .P => s.refuseP cw
  | .C => s.refuseC cw

/-! ## The codes buffer and its lock (R24, R77 to R80) -/

/-- The eight lanes a reader of the buffer sees: CODE where VALID, a free value where missing (R46). -/
def State.lanes (s : State) : Vector Code 8 :=
  Vector.ofFn fun c => if flag s.valid c then s.code[c] else Config.missingLane s.epoch c.val

/-- One atomic write of the buffer: lock taken for the producer, CODE and VALID written, lock freed
(R78). -/
def State.writeBuffer (s : State) (code : Vector Code 8) (valid : BitVec 8) : State :=
  let s := { s with bufLock := .producer }
  let s := { s with code := code, valid := valid, epoch := s.epoch + 1 }
  { s with bufLock := .free }

/-- A commit: the write and its `EvCommit` (R14, R78). -/
def State.commit (s : State) (code : Vector Code 8) (valid : BitVec 8) : State :=
  let s := s.writeBuffer code valid
  s.emit (.commit s.lanes s.valid)

/-- CODE with the staged codes of the channels of `SVALID` (R211). -/
def State.staged (s : State) : Vector Code 8 :=
  Vector.ofFn fun c => if flag s.svalid c then s.stage[c] else s.code[c]

/-- The commit of a pass: `if SVALID[c] = 1 then CODE[c] <- STAGE[c]; VALID[c] <- SVALID[c]` (R211). -/
def State.commitPass (s : State) : State := s.commit s.staged s.svalid

/-- The commit of a READ_CH: `CODE[ch] <- STAGE[ch]; VALID[ch] <- 1` (R203). -/
def State.commitChannel (s : State) (c : Chan) : State :=
  s.commit (s.code.set c s.stage[c]) (setFlag s.valid c)

/-- The commit of a faulted READ_CH: `VALID[ch] <- 0` (R204). -/
def State.commitMissing (s : State) (c : Chan) : State := s.commit s.code (clearFlag s.valid c)

/-- RESET's clearing of VALID: atomic like a commit, no event (R166 step 0, R14). -/
def State.clearBuffer (s : State) : State := s.writeBuffer s.code 0

/-- A snapshot: lock taken for the consumer, all of CODE and VALID read, lock freed, `EvSnapshot`; the
response carries the lanes and `vmask = VALID` (R78, R220). -/
def State.snapshot (s : State) (p : Port) : State × Response :=
  let s := { s with bufLock := .consumer }
  let lanes := s.lanes
  let s := { s with bufLock := .free }
  (s.emit (.snapshot p lanes s.valid), Response.okWith s.valid (packLanes lanes))

/-- A result word joins the staging buffer: `STAGE[c] <- rx[15:0]; SVALID[c] <- 1` (R25, R113). -/
def State.capture (s : State) (c : Chan) (rx : BitVec 32) : State :=
  { s with stage := s.stage.set c (rx.extractLsb' 0 16), svalid := setFlag s.svalid c }

/-- The lanes a pass has captured, the others 0 (R216). -/
def State.captured (s : State) : Vector Code 8 :=
  Vector.ofFn fun c => if flag s.svalid c then s.stage[c] else 0

/-! ## Waits and the chip-select action of RESET -/

/-- `Wait(T)`: a lower bound on time, recorded as `EvDelay` (R13, R76). -/
def State.wait (s : State) (t : Time) : State := s.emit (.delay t)

/-- RESET step 1: chip-select driven to Deasserted outside a transaction (R134, R166). -/
def State.csDeassert (s : State) : State :=
  { s with ft := { s.ft with cs := .deasserted } }.emit .csDeassert

/-! ## Hardware reset -/

/-- Hardware reset with the strap pins `k` (R340): every piece of the block's state at its reset value,
no event, no frame. DEV keeps what it had (R342). DESIGN CHOICE (log 20): SCHED, TMR and the inputs keep
what they had too, and registers with no specified reset value get the values of `State.reset`, among
them `cur_status`, which SCHED reads (log 34). -/
def State.hwReset (s : State) (k : Straps) : State :=
  { s with
    drvState := .uninitialized
    range := Vector.replicate 8 rangeDefault
    code := Vector.replicate 8 0
    valid := 0
    stage := Vector.replicate 8 0
    svalid := 0
    autoArmed := false
    busy := false
    curCw := 0
    curStatus := .ok
    seqK := 0
    bufLock := .free
    ft := Ft.reset
    straps := k
    pResp := none
    cResp := none
    ftReply := none
    port := .P
    bench := false
    epoch := s.epoch + 1 }

end Sys2Proof.Machine
end

