-- ==== Sys2Proof/Machine/Ft.lean ====
section
/-! DEFINITION. FT, the SPI master frame controller: the atomic transaction (R131 to R136) and the
bit-level engine that refines it (R141 to R146). -/

namespace Sys2Proof.Machine

open Sys2Proof

/-- The reply a finished frame gives: `BusFault` on a fault, else the received word, which a WRITE_REG
drops (R131, R136, R138). -/
def replyOf (kind : ReqKind) : FrameOut → FtReply
  | .fault => ⟨.busFault, 0⟩
  | .rxOk rx => match kind with
    | .transact => ⟨.ok, rx⟩
    | .writeReg => ⟨.ok, 0⟩

/-- DEV receives a frame whole (R262). -/
def State.devReceives (s : State) (w : Width) (tx : TxWord) : State :=
  { s with dev := s.dev.receive s.cfg w tx }

/-! ## The atomic transaction (R131) -/

/-- FT back at idle after a frame of `pulses` clock pulses that received `rx` (R131, R144). -/
def Ft.afterFrame (kind : ReqKind) (w : Width) (tx : TxWord) (rx : BitVec 32) (pulses : Nat) : Ft where
  cs := .deasserted
  state := .idle
  w := w
  shTx := w.trunc tx
  shRx := w.firstBits pulses rx
  bitcnt := 0
  err := false
  settleCnt := 0
  mosi := false
  kind := kind
  acts := false
  pulses := pulses

/-- The frame is exchanged whole: chip-select asserted, `w` bits, chip-select deasserted, the settle
delay held, `EvFrame` (R131, R134, R135). -/
def State.frameOk (s : State) (kind : ReqKind) (w : Width) (tx : TxWord) (rx : BitVec 32) : State × Option FtReply :=
  let out := FrameOut.rxOk (w.trunc rx)
  (({ s with ft := Ft.afterFrame kind w tx rx w.bits }.devReceives w (w.trunc tx)).emit (.frame w (w.trunc tx) out),
    some (replyOf kind out))

/-- `bus_err` during the frame: clocking stops after the step that sees it, chip-select is deasserted,
the settle delay held, `EvFrame(w, tx, Fault)`; DEV acted on the frame only where `acts` (R136). -/
def State.frameFault (s : State) (kind : ReqKind) (w : Width) (tx : TxWord) (rx : BitVec 32) (bits : Nat)
    (acts : Bool) : State × Option FtReply :=
  let s := { s with ft := Ft.afterFrame kind w tx rx (w.errorStep bits + 1) }
  let s := if acts then s.devReceives w (w.trunc tx) else s
  (s.emit (.frame w (w.trunc tx) .fault), some (replyOf kind .fault))

/-- The bus was not ready at acceptance: `EvRefused`, `BusFault`, no activity (R133). -/
def State.frameRefused (s : State) (w : Width) (tx : TxWord) : State × Option FtReply :=
  (s.emit (.refused w (w.trunc tx)), some ⟨.busFault, 0⟩)

/-- Acceptance by the bit-level engine (R141). -/
def Ft.accept (kind : ReqKind) (w : Width) (tx : TxWord) (ft : Ft) : Ft :=
  { ft with
    w := w, shTx := w.trunc tx, shRx := 0, bitcnt := 0, err := false, cs := .asserted, state := .shift,
    kind := kind, acts := false, pulses := 0 }

/-- A legal request of width `w` (R131). The answer is the environment's (R140): whole, or bit by bit.
With no answer queued BUS has not answered yet: the frame is begun and waits for bits (R137, R357). -/
def State.request (s : State) (kind : ReqKind) (w : Width) (tx : TxWord) : State × Option FtReply :=
  match s.busIn with
  | [] => ({ s with ft := s.ft.accept kind w tx }, none)
  | .bitwise :: b => ({ s with busIn := b, ft := s.ft.accept kind w tx }, none)
  | .notReady :: b => { s with busIn := b }.frameRefused w tx
  | .answer rx :: b => { s with busIn := b }.frameOk kind w tx rx
  | .device noise :: b => { s with busIn := b }.frameOk kind w tx (s.dev.returns w noise)
  | .fault rx bits acts :: b => { s with busIn := b }.frameFault kind w tx rx bits acts

/-- `Cmd(c16)`: a command frame by TRANSACT (R13, R108). -/
def State.command (s : State) (cmd : BitVec 16) : State × Option FtReply :=
  s.request .transact .w32 (cmdFrame cmd)

/-- `RegWrite(a, v)`: a register frame by WRITE_REG (R13, R138). -/
def State.regWrite (s : State) (a : BitVec 7) (v : Byte) : State × Option FtReply :=
  s.request .writeReg .w24 (regFrame a v)

/-! ## The bit-level engine (R142 to R146) -/

/-- One shift step: one pulse, `mosi` driven, `miso` sampled, an error recorded (R142). -/
def Ft.shiftBit (miso err acts : Bool) (ft : Ft) : Ft :=
  { ft with
    mosi := ft.w.wireBit ft.shTx ft.bitcnt
    shRx := ft.shRx ||| (BitVec.ofBool miso).setWidth 32 <<< (ft.w.bits - 1 - ft.bitcnt)
    bitcnt := ft.bitcnt + 1
    pulses := ft.pulses + 1
    err := err
    acts := acts }

/-- Idle steps may pass between two bytes of a frame under SwGpioCs, and nowhere else (R145). -/
def State.gapAllowed (s : State) : Bool :=
  s.straps.csImpl == .swGpioCs && decide (0 < s.ft.bitcnt) && decide (s.ft.bitcnt % 8 = 0)

/-- End of frame: chip-select deasserted, `mosi` 0, the settle delay begins, no pulse (R143). DEV has
received the frame, unless it faulted and DEV did not act on it (R136). -/
def State.endShift (s : State) : State :=
  let t := if s.ft.err && !s.ft.acts then s else s.devReceives s.ft.w s.ft.shTx
  { t with ft := { t.ft with cs := .deasserted, mosi := false, settleCnt := t.cfg.settleTicks, state := .settle } }

/-- A step in `ft_state = Shift`: the end of the frame, a bit, a gap, or nothing while BUS supplies
nothing (R142, R143, R145, R357). A gap where none is allowed is dropped (log 25). -/
def State.shiftStep (s : State) : State :=
  if s.ft.err || decide (s.ft.w.bits ≤ s.ft.bitcnt) then s.endShift
  else match s.lineIn with
    | [] => s
    | .bit miso err acts :: l => { s with lineIn := l, ft := s.ft.shiftBit miso err acts }
    | .gap err acts :: l =>
      if s.gapAllowed then { s with lineIn := l, ft := { s.ft with err := err, acts := acts } }
      else { s with lineIn := l }

/-- The outcome of the frame in the engine (R144). -/
def Ft.outcome (ft : Ft) : FrameOut := if ft.err then .fault else .rxOk (ft.w.trunc ft.shRx)

/-- The settle delay is over: FT idle, `EvFrame`, the reply (R144). -/
def State.endSettle (s : State) : State × FtReply :=
  let out := s.ft.outcome
  ({ s with ft := { s.ft with state := .idle, bitcnt := 0, err := false, acts := false, settleCnt := 0 } }.emit
      (.frame s.ft.w s.ft.shTx out),
    replyOf s.ft.kind out)

end Sys2Proof.Machine
end

