-- ==== Sys2Proof/Machine/Seq.lean ====
section
/-! DEFINITION. SEQ as a machine of micro-steps (R30, R162 to R165): an operation is a step list; one
micro-step may send one frame; port C may be served, and hardware reset may come, at each of them. -/

namespace Sys2Proof.Machine

open Sys2Proof

/-- An operation's step list. `step k` performs step k up to the reply of its frame, if it sends one;
`reply k` is the rest of step k, given FT's reply. -/
structure SeqOp where
  /-- The number of steps, the fault step F among them. -/
  steps : Nat
  step  : Nat → State → State × Option FtReply
  reply : Nat → FtReply → State → State

/-- A step that sends no frame. -/
def noFrame (s : State) : State × Option FtReply := (s, none)

/-- On `Ok` the next step, on a fault the step `f` (R30). -/
def State.nextOr (s : State) (k : Nat) (r : FtReply) (f : Nat) : State :=
  if r.status = .ok then s.goto (k + 1) else s.goto f

/-- One micro-step of the operation in progress. It stays at step k while FT has not replied. -/
def SeqOp.micro (op : SeqOp) (s : State) : State :=
  match op.step s.seqK s with
  | (t, none) => t
  | (t, some r) => op.reply s.seqK r t

/-! ## Port C (R38, R104, R220, R231) -/

/-- GET_CODES on port C: it completes in the step that accepts it. -/
def State.getCodesC (s : State) (cw : HostWord) : State :=
  let (t, r) := (s.emit (.op .C cw)).snapshot .C
  t.respondC r

/-- TO_VOLTAGE on port C: it completes in the step that accepts it. -/
def State.toVoltageC (s : State) (cw : HostWord) (code : Code) (rg : Byte) : State :=
  (s.emit (.op .C cw)).respondC (voltageResponse s.straps.coding code rg)

/-- A word of port C: GET_CODES and TO_VOLTAGE are answered, anything else is refused (R38, R104). -/
def State.serveC (s : State) (cw : HostWord) : State :=
  match decodeHost cw with
  | .ok .getCodes => s.getCodesC cw
  | .ok (.toVoltage code rg) => s.toVoltageC cw code rg
  | _ => s.refuseC cw

/-- Words of port C, one after the other. -/
def State.serveAll (s : State) (cws : List HostWord) : State := cws.foldl State.serveC s

/-- A step `f` of SEQ or FT together with what happens beside it: of a commit and a snapshot "either may
go first; the choice is free" (R80), any number of snapshots fall between two steps (R79), and hardware
reset is asynchronous (R340). -/
def State.tick (s : State) (f : State → State) : State :=
  match s.slots with
  | [] => f s
  | .quiet :: l => f { s with slots := l }
  | .before cws :: l => f ({ s with slots := l }.serveAll cws)
  | .after cws :: l => (f { s with slots := l }).serveAll cws
  | .rst k :: l => { s with slots := l }.hwReset k

/-! ## Running -/

/-- Micro-steps until the operation has responded or waits for FT, at most `n` of them. -/
def SeqOp.run (op : SeqOp) : Nat → State → State
  | 0, s => s
  | n + 1, s =>
    if s.busy = true ∧ s.ft.state = .idle then op.run n (s.tick op.micro) else s

/-- More than the longest step list has steps: "the longest has 12 steps" (R30). -/
def seqFuel : Nat := 16

/-- A host operation that only port P accepts (R37, R104): accepted there and run. -/
def SeqOp.exec (op : SeqOp) (i : Instr) (s : State) : Host.Outcome State Fault Refusal :=
  match s.port with
  | .P => .next (op.run seqFuel (s.acceptP (hostWordOf i)))
  | .C => .next (s.refuseC (hostWordOf i))

end Sys2Proof.Machine
end

