-- ==== Sys2Proof/Machine/Configure.lean ====
section
/-! DEFINITION. The configuration operations of 41_driver_init.md: RESET, POWER_ON_ALL, SET_RANGE,
GET_RANGE, ENTER_SCAN. Step numbers are those of the spec's step lists. -/

namespace Sys2Proof.Machine

open Sys2Proof

/-! ## RESET (R166) -/

/-- Steps of RESET; 7 is the step F. -/
def resetStep : Nat → State → State × Option FtReply
  | 0, s => noFrame (({ s with
      drvState := .resetting, autoArmed := false, range := Vector.replicate 8 rangeDefault }.clearBuffer).goto 1)
  | 1, s => noFrame (s.csDeassert.goto 2)
  | 2, s => noFrame ((s.wait s.cfg.tPowerStable).goto 3)
  | 3, s => s.command s.cfg.opcRst
  | 4, s => noFrame ((s.wait s.cfg.tResetSettle).goto 5)
  | 5, s => s.regWrite s.cfg.regChPwrDn pwrAllOn
  | 6, s => noFrame ({ s with drvState := .configuring }.respondP Response.plain)
  | _, s => noFrame s.raiseConfigFault

/-- RESET as a step list: its frames are steps 3 and 5, the responses of both are dropped (R113). -/
def resetOp : SeqOp where
  steps := 8
  step := resetStep
  reply := fun k r s => s.nextOr k r 7

/-- RESET (R166). -/
def execReset (s : State) : Host.Outcome State Fault Refusal := resetOp.exec .reset s

/-! ## POWER_ON_ALL (R171) -/

/-- Steps of POWER_ON_ALL. -/
def powerOnAllStep : Nat → State → State × Option FtReply
  | 0, s => noFrame ({ s with autoArmed := false }.goto 1)
  | 1, s => s.regWrite s.cfg.regChPwrDn pwrAllOn
  | _, s => noFrame (s.respondP Response.plain)

/-- POWER_ON_ALL as a step list. -/
def powerOnAllOp : SeqOp where
  steps := 3
  step := powerOnAllStep
  reply := fun k r s => if r.status = .ok then s.goto (k + 1) else s.raiseConfigFault

/-- POWER_ON_ALL (R171). -/
def execPowerOnAll (s : State) : Host.Outcome State Fault Refusal := powerOnAllOp.exec .powerOnAll s

/-! ## SET_RANGE (R175) -/

/-- An operation whose operands are illegal: answered in step 0, nothing written, no frame (R305). -/
def illegalOperandOp : SeqOp where
  steps := 1
  step := fun _ s => noFrame (s.raise .invalidArgument)
  reply := fun _ _ s => s

/-- Steps of a SET_RANGE with legal operands. -/
def setRangeStep (c : Chan) (rg : Byte) : Nat → State → State × Option FtReply
  | 0, s => noFrame (s.goto 1)
  | 1, s => { s with autoArmed := false }.regWrite (s.cfg.rangeReg c) rg
  | _, s => noFrame ({ s with range := s.range.set c rg }.respondP Response.plain)

/-- SET_RANGE as a step list; step 0 checks `ch ≤ 7` and `rg ≤ 6`. -/
def setRangeOp (ch rg : Byte) : SeqOp :=
  match chan? ch with
  | some c =>
    if legalRange rg then
      { steps := 3
        step := setRangeStep c rg
        reply := fun k r s => if r.status = .ok then s.goto (k + 1) else s.raiseConfigFault }
    else illegalOperandOp
  | none => illegalOperandOp

/-- SET_RANGE (R175). -/
def execSetRange (ch rg : Byte) (s : State) : Host.Outcome State Fault Refusal :=
  (setRangeOp ch rg).exec (.setRange ch rg) s

/-! ## GET_RANGE (R179) -/

/-- GET_RANGE as a step list: the session's record, no frame. -/
def getRangeOp (ch : Byte) : SeqOp :=
  match chan? ch with
  | some c =>
    { steps := 1
      step := fun _ s => noFrame (s.respondP (Response.scalar s.range[c]))
      reply := fun _ _ s => s }
  | none => illegalOperandOp

/-- GET_RANGE (R179). -/
def execGetRange (ch : Byte) (s : State) : Host.Outcome State Fault Refusal :=
  (getRangeOp ch).exec (.getRange ch) s

/-! ## ENTER_SCAN (R184) -/

/-- Steps of ENTER_SCAN. -/
def enterScanStep : Nat → State → State × Option FtReply
  | 0, s => noFrame (
      if s.drvState = .uninitialized then s.raise .notInitialized
      else if s.straps.strategy = .manual then s.goto 3
      else s.goto 1)
  | 1, s => { s with autoArmed := false }.regWrite s.cfg.regAutoSeqEn s.cfg.seqEnAll
  | 2, s => s.command s.cfg.opcAutoRst
  | _, s => noFrame ({ s with drvState := .ready }.respondP Response.plain)

/-- The rest of ENTER_SCAN's frame steps: a completed priming frame arms the sequence. -/
def enterScanReply (k : Nat) (r : FtReply) (s : State) : State :=
  if r.status = .ok then
    if k = 2 then { s with autoArmed := true }.goto 3 else s.goto (k + 1)
  else s.raiseConfigFault

/-- ENTER_SCAN as a step list. -/
def enterScanOp : SeqOp where
  steps := 4
  step := enterScanStep
  reply := enterScanReply

/-- ENTER_SCAN (R184). -/
def execEnterScan (s : State) : Host.Outcome State Fault Refusal := enterScanOp.exec .enterScan s

end Sys2Proof.Machine
end

