-- ==== Sys2Proof/Machine/Scan.lean ====
section
/-! DEFINITION. The read operations of 42_driver_scan.md: READ_CH, SCAN_ALL under both strategies,
GET_CODES. Step numbers are those of the spec's step lists. -/

namespace Sys2Proof.Machine

open Sys2Proof

/-! ## READ_CH (R200) -/

/-- Steps of a READ_CH of a legal channel; 4 is the step F. -/
def readChStep (c : Chan) : Nat → State → State × Option FtReply
  | 0, s => noFrame (if s.drvState = .ready then s.goto 1 else s.raise .notInitialized)
  | 1, s => { s with autoArmed := false, svalid := clearFlag s.svalid c }.command s.cfg.opcManCh[c]
  | 2, s => s.command s.cfg.opcNoOp
  | 3, s => noFrame ((s.commitChannel c).respondP (Response.scalar s.stage[c]))
  | _, s => noFrame ((s.commitMissing c).raise .busFault)

/-- The rest of READ_CH's frame steps: the select frame's response is discarded, the second frame's is
the channel's code (R201). -/
def readChReply (c : Chan) (k : Nat) (r : FtReply) (s : State) : State :=
  if r.status = .ok then
    if k = 2 then (s.capture c r.rx).goto 3 else s.goto (k + 1)
  else s.goto 4

/-- READ_CH with `ch > 7`: the driver state is checked before the operand (R162, R305). -/
def readChIllegalStep (s : State) : State × Option FtReply :=
  noFrame (if s.drvState = .ready then s.raise .invalidArgument else s.raise .notInitialized)

/-- READ_CH as a step list. -/
def readChOp (ch : Byte) : SeqOp :=
  match chan? ch with
  | some c => { steps := 5, step := readChStep c, reply := readChReply c }
  | none => { steps := 1, step := fun _ s => readChIllegalStep s, reply := fun _ _ s => s }

/-- READ_CH (R200). -/
def execReadCh (ch : Byte) (s : State) : Host.Outcome State Fault Refusal := (readChOp ch).exec (.readCh ch) s

/-! ## SCAN_ALL (R205 to R217) -/

/-- Channel `n` of 0..7. -/
def chanOf (n : Nat) : Chan := Fin.ofNat 8 n

/-- Step 0 of SCAN_ALL: the state check, and the "fresh buffer" (R205). -/
def scanStart (s : State) : State :=
  if s.drvState = .ready then { s with svalid := 0 }.goto 1 else s.raise .notInitialized

/-- The last step of a pass: commit, `Ok`, eight lanes, `vmask = 0xFF` (R208, R211, R213). -/
def scanDone (s : State) : State :=
  s.commitPass.respondP (Response.okWith s.svalid (packLanes s.captured))

/-- Step F of a pass: `auto_armed <- 0`, commit of what was captured, `BusFault` with the captured lanes
and their mask (R216). -/
def scanFault (s : State) : State :=
  { s with autoArmed := false }.commitPass.respondP ⟨.busFault, s.svalid, packLanes s.captured⟩

/-- Steps of a manual pass (R208): nine frames; step 1+k selects channel k, step 9 is the no-op; 11 is
the step F. -/
def scanManualStep (k : Nat) (s : State) : State × Option FtReply :=
  match k with
  | 0 => noFrame (scanStart s)
  | 9 => s.command s.cfg.opcNoOp
  | 10 => noFrame (scanDone s)
  | k + 1 => if k < 8 then s.command s.cfg.opcManCh[chanOf k] else noFrame (scanFault s)

/-- The rest of a manual pass's frame steps: the first response is discarded, that of step 1+k is
channel k−1's result (R207, R208). -/
def scanManualReply (k : Nat) (r : FtReply) (s : State) : State :=
  if r.status = .ok then
    if k = 1 then s.goto 2 else (s.capture (chanOf (k - 2)) r.rx).goto (k + 1)
  else s.goto 11

/-- Steps of an auto-sequence pass (R213): the priming frame when not armed, seven no-ops, the closing
restart; 11 is the step F. -/
def scanAutoStep (k : Nat) (s : State) : State × Option FtReply :=
  match k with
  | 0 => noFrame (scanStart s)
  | 1 => if s.autoArmed then noFrame (s.goto 2) else s.command s.cfg.opcAutoRst
  | 2 => { s with autoArmed := false }.command s.cfg.opcNoOp
  | 9 => s.command s.cfg.opcAutoRst
  | 10 => noFrame (scanDone s)
  | k => if k < 9 then s.command s.cfg.opcNoOp else noFrame (scanFault s)

/-- The rest of an auto-sequence pass's frame steps: a completed restart arms; the response of step 2+j
is channel j's result (R207, R213, R215). -/
def scanAutoReply (k : Nat) (r : FtReply) (s : State) : State :=
  if r.status = .ok then
    if k = 1 then { s with autoArmed := true }.goto 2
    else if k = 9 then { s.capture 7 r.rx with autoArmed := true }.goto 10
    else (s.capture (chanOf (k - 2)) r.rx).goto (k + 1)
  else s.goto 11

/-- SCAN_ALL as a step list; the strap STRATEGY selects which (R205). -/
def scanAllOp : SeqOp where
  steps := 12
  step := fun k s => match s.straps.strategy with
    | .manual => scanManualStep k s
    | .autoSeq => scanAutoStep k s
  reply := fun k r s => match s.straps.strategy with
    | .manual => scanManualReply k r s
    | .autoSeq => scanAutoReply k r s

/-- SCAN_ALL (R205). -/
def execScanAll (s : State) : Host.Outcome State Fault Refusal := scanAllOp.exec .scanAll s

/-! ## GET_CODES (R220) -/

/-- The one step of GET_CODES on port P. -/
def getCodesStep (s : State) : State × Option FtReply :=
  let (t, r) := s.snapshot .P
  noFrame (t.respondP r)

/-- GET_CODES as a step list. -/
def getCodesOp : SeqOp where
  steps := 1
  step := fun _ s => getCodesStep s
  reply := fun _ _ s => s

/-- GET_CODES (R220): "Accepted in: every state, on port P or port C." -/
def execGetCodes (s : State) : Host.Outcome State Fault Refusal :=
  match s.port with
  | .P => getCodesOp.exec .getCodes s
  | .C => .next (s.getCodesC (hostWordOf .getCodes))

end Sys2Proof.Machine
end

