-- ==== Sys2Proof/Machine/Convert.lean ====
section
/-! DEFINITION. TO_VOLTAGE, the operation of CVT (43_converter.md). -/

namespace Sys2Proof.Machine

open Sys2Proof

/-- TO_VOLTAGE as a step list: CVT "reads no state and writes none" but the strap BIPOLAR_CODING (R230,
R238). -/
def toVoltageOp (code : Code) (rg : Byte) : SeqOp where
  steps := 1
  step := fun _ s => noFrame (s.respondP (voltageResponse s.straps.coding code rg))
  reply := fun _ _ s => s

/-- TO_VOLTAGE (R231): accepted on either port, in every driver state; it never fails. -/
def execToVoltage (code : Code) (rg : Byte) (s : State) : Host.Outcome State Fault Refusal :=
  match s.port with
  | .P => (toVoltageOp code rg).exec (.toVoltage code rg) s
  | .C => .next (s.toVoltageC (hostWordOf (.toVoltage code rg)) code rg)

end Sys2Proof.Machine
end

