-- ==== Sys2Proof/Machine/Transport.lean ====
section
/-! DEFINITION. The transport requests TRANSACT and WRITE_REG as their requester sees them (R130 to
R139). SEQ makes its own requests inside its step lists; here the requester is a bench that drives FT's
request interface in SEQ's place (log 10, log 19). -/

namespace Sys2Proof.Machine

open Sys2Proof

/-- A bench's request: its reply is presented at once where the frame finished, and otherwise when the
engine ends it. "A request changes no state of SEQ or CVT" (R130); while the engine works the bench
occupies SEQ's place, so `busy = 1` and port P is not ready (R37, R47 d). -/
def State.benchRequest (s : State) (kind : ReqKind) (w : Width) (tx : TxWord) : State :=
  match s.request kind w tx with
  | (t, some r) => { t with ftReply := some r, bench := false }
  | (t, none) => { t with busy := true, bench := true }

/-- An illegal request: `(InvalidArgument, 0)`, no bus activity, no event (R132). -/
def State.illegalRequest (s : State) : State := { s with ftReply := some ⟨.invalidArgument, 0⟩ }

/-- TRANSACT (R131); WSEL = 11 is illegal (R107, R132). -/
def execTransact (wsel : BitVec 2) (payload : BitVec 32) (s : State) : Host.Outcome State Fault Refusal :=
  match widthOfWsel wsel with
  | some w => .next (s.benchRequest .transact w payload)
  | none => .next s.illegalRequest

/-- WRITE_REG (R138): one register frame, the received bits dropped. -/
def execWriteReg (a : BitVec 7) (v : Byte) (s : State) : Host.Outcome State Fault Refusal :=
  .next (s.benchRequest .writeReg .w24 (regFrame a v))

end Sys2Proof.Machine
end

