-- ==== Sys2Proof/Machine/Wire.lean ====
section
/-! DEFINITION. The wire frames of 44_adc_wire_commands.md, one meaning for each row: FT puts the frame
on the wire and BUS answers (R131); DEV, where it receives the frame, does what R252 to R259 say
(`Dev.receive`, one definition for each kind of frame in Machine/Dev.lean) and returns the conversion
the previous command started (R251). A frame changes no state of SEQ (R130). -/

namespace Sys2Proof.Machine

open Sys2Proof

/-- A command frame on the wire (R108). -/
def State.wireCommand (s : State) (cmd : BitVec 16) : State := s.benchRequest .transact .w32 (cmdFrame cmd)

/-- A register frame on the wire (R109, R112). -/
def State.wireWrite (s : State) (a : BitVec 7) (v : Byte) : State :=
  s.benchRequest .transact .w24 (regFrame a v)

/-- W.NO_OP (R252). -/
def execWNoOp (s : State) : Host.Outcome State Fault Refusal := .next (s.wireCommand s.cfg.opcNoOp)

/-- W.RST (R253). -/
def execWRst (s : State) : Host.Outcome State Fault Refusal := .next (s.wireCommand s.cfg.opcRst)

/-- W.AUTO_RST (R254). -/
def execWAutoRst (s : State) : Host.Outcome State Fault Refusal := .next (s.wireCommand s.cfg.opcAutoRst)

/-- W.MAN_CH0 (R255). -/
def execWManCh0 (s : State) : Host.Outcome State Fault Refusal := .next (s.wireCommand s.cfg.opcManCh[0])

/-- W.MAN_CH1 (R255). -/
def execWManCh1 (s : State) : Host.Outcome State Fault Refusal := .next (s.wireCommand s.cfg.opcManCh[1])

/-- W.MAN_CH2 (R255). -/
def execWManCh2 (s : State) : Host.Outcome State Fault Refusal := .next (s.wireCommand s.cfg.opcManCh[2])

/-- W.MAN_CH3 (R255). -/
def execWManCh3 (s : State) : Host.Outcome State Fault Refusal := .next (s.wireCommand s.cfg.opcManCh[3])

/-- W.MAN_CH4 (R255). -/
def execWManCh4 (s : State) : Host.Outcome State Fault Refusal := .next (s.wireCommand s.cfg.opcManCh[4])

/-- W.MAN_CH5 (R255). -/
def execWManCh5 (s : State) : Host.Outcome State Fault Refusal := .next (s.wireCommand s.cfg.opcManCh[5])

/-- W.MAN_CH6 (R255). -/
def execWManCh6 (s : State) : Host.Outcome State Fault Refusal := .next (s.wireCommand s.cfg.opcManCh[6])

/-- W.MAN_CH7 (R255). -/
def execWManCh7 (s : State) : Host.Outcome State Fault Refusal := .next (s.wireCommand s.cfg.opcManCh[7])

/-- W.WR, a program-register write (R256). -/
def execWWr (a : BitVec 7) (v : Byte) (s : State) : Host.Outcome State Fault Refusal := .next (s.wireWrite a v)

/-- W.WR_AUTO_SEQ_EN (R259). -/
def execWWrAutoSeqEn (s : State) : Host.Outcome State Fault Refusal :=
  .next (s.wireWrite s.cfg.regAutoSeqEn s.cfg.seqEnAll)

/-- W.WR_CH_PWR_DN (R257). -/
def execWWrChPwrDn (s : State) : Host.Outcome State Fault Refusal := .next (s.wireWrite s.cfg.regChPwrDn pwrAllOn)

/-- W.WR_RANGE0 (R258). -/
def execWWrRange0 (v : Byte) (s : State) : Host.Outcome State Fault Refusal := .next (s.wireWrite (s.cfg.rangeReg 0) v)

/-- W.WR_RANGE1 (R258). -/
def execWWrRange1 (v : Byte) (s : State) : Host.Outcome State Fault Refusal := .next (s.wireWrite (s.cfg.rangeReg 1) v)

/-- W.WR_RANGE2 (R258). -/
def execWWrRange2 (v : Byte) (s : State) : Host.Outcome State Fault Refusal := .next (s.wireWrite (s.cfg.rangeReg 2) v)

/-- W.WR_RANGE3 (R258). -/
def execWWrRange3 (v : Byte) (s : State) : Host.Outcome State Fault Refusal := .next (s.wireWrite (s.cfg.rangeReg 3) v)

/-- W.WR_RANGE4 (R258). -/
def execWWrRange4 (v : Byte) (s : State) : Host.Outcome State Fault Refusal := .next (s.wireWrite (s.cfg.rangeReg 4) v)

/-- W.WR_RANGE5 (R258). -/
def execWWrRange5 (v : Byte) (s : State) : Host.Outcome State Fault Refusal := .next (s.wireWrite (s.cfg.rangeReg 5) v)

/-- W.WR_RANGE6 (R258). -/
def execWWrRange6 (v : Byte) (s : State) : Host.Outcome State Fault Refusal := .next (s.wireWrite (s.cfg.rangeReg 6) v)

/-- W.WR_RANGE7 (R258). -/
def execWWrRange7 (v : Byte) (s : State) : Host.Outcome State Fault Refusal := .next (s.wireWrite (s.cfg.rangeReg 7) v)

end Sys2Proof.Machine
end

