-- ==== Sys2Proof/Machine/Owner.lean ====
section
/-! DEFINITION. The owner of port P: the pseudo-operations (R116) and SCHED, the sampling scheduler
(R280 to R290). They drive the block by words alone and change no state of it. -/

namespace Sys2Proof.Machine

open Sys2Proof

/-! ## Pseudo-operations (R116) -/

/-- `INIT r0, ..., r7`: RESET; SET_RANGE c, rc; POWER_ON_ALL; ENTER_SCAN (R116, R345). -/
def initWords (ranges : Vector Byte 8) : List HostWord :=
  hostWordOf .reset ::
    (channels.map fun c => hostWordOf (.setRange (BitVec.ofNat 8 c.val) ranges[c]))
      ++ [hostWordOf .powerOnAll, hostWordOf .enterScan]

/-- INIT as a move of the owner: it stops at the first response that is not `Ok` (R116). -/
def initInput (ranges : Vector Byte 8) : Input := .script true (initWords ranges)

/-- `SET_RANGE_ALL rg`: SET_RANGE c, rg for c = 0..7 in ascending order (R116). -/
def setRangeAllInputs (rg : Byte) : List Input :=
  channels.map fun c => .portP (hostWordOf (.setRange (BitVec.ofNat 8 c.val) rg))

/-- The words of `SCAN8`: READ_CH c for c = 0..7 in ascending order (R116, R222). -/
def scan8Words : List HostWord := channels.map fun c => hostWordOf (.readCh (BitVec.ofNat 8 c.val))

/-- The next move of a script of the owner: it stops "at the first response that is not `Ok`" and reports
it, or ends when its words are used up (R116). A word that hardware reset cut off is never answered, and the
script goes on as after `Ok`: DESIGN CHOICE (log 34). -/
def scriptMove (fresh : Bool) (ws : List HostWord) (rest : List Input) (s : State) : State :=
  if fresh = false ∧ s.curStatus ≠ .ok then
    { s with inbox := rest, sched := { s.sched with reports := s.sched.reports ++ [.initFailed s.curStatus] } }
  else match ws with
    | [] => { s with inbox := rest }
    | w :: ws => { s with inbox := .portP w :: .script false ws :: rest }

/-! ## TMR (R322) -/

/-- TMR's answer to `now()`: "an absolute time that never decreases". -/
def State.readNow (s : State) (now : Time) : State := { s with now := max s.now now }

/-- `sleepUntil(t)`: it "returns at a time ≥ t", which is `wake` where that is late enough. -/
def State.sleepUntil (s : State) (t wake : Time) : State := s.readNow (max t wake)

/-- `sleepMicros(n)`: it "returns at least n microseconds after the call". -/
def State.sleepMicros (s : State) (n : Nat) (wake : Time) : State := s.sleepUntil (s.now + n) wake

/-! ## SCHED (R280 to R290) -/

/-- `period`: "a configuration value, not a constant of the design" (R280), SAMPLE_PERIOD of R8. -/
def State.period (s : State) : Time := s.cfg.samplePeriod

/-- SCHED brings the block to `Ready` by the startup sequence, then starts (R281). -/
def startupMove (ranges : Vector Byte 8) (now : Time) (rest : List Input) (s : State) : State :=
  { s with inbox := initInput ranges :: .schedStart now :: rest }

/-- SCHED's start: `deadline <- now()`, `missed_count <- 0`, "before its first iteration", once the block
is `Ready` (R281). Where it is not, SCHED does not start (log 21). DESIGN CHOICE (log 37): a second start, after
a startup sequence run again, restarts the deadline and the count too; the spec does not say. -/
def schedStart (now : Time) (s : State) : State :=
  if s.drvState = .ready then
    let s := s.readNow now
    { s with sched := { s.sched with started := true, deadline := s.now, missed := 0 } }
  else s

/-- Step 1 of an iteration: SCAN_ALL, or the eight READ_CH of SCAN8; then steps 2 to 5 (R282, R283). That
each of SCAN8's eight responses is looked at, as R283 has it of the scan's response, is DEDUCED (log 23).
SCHED makes no iteration before its start (R281). -/
def iterateMove (scan8 : Bool) (now wake : Time) (rest : List Input) (s : State) : State :=
  if s.sched.started = true then
    let ws := if scan8 then scan8Words else [hostWordOf .scanAll]
    { s with inbox := (ws.flatMap fun w => [.portP w, .report]) ++ .finish now wake :: rest }
  else { s with inbox := rest }

/-- A scan whose response is not `Ok` is reported and the loop goes on (R283). SCHED reads the status the
block last answered. DESIGN CHOICE (log 34): a scan that hardware reset cut off is never answered, the spec
does not say what SCHED then does, and here it reads the `Ok` that reset left, reports nothing and goes on. -/
def schedReport (s : State) : State :=
  if s.sched.started = false ∨ s.curStatus = .ok then s
  else { s with sched := { s.sched with reports := s.sched.reports ++ [.scanFailed s.curStatus] } }

/-- Steps 2 to 5 of an iteration: `deadline <- deadline + period`; if `sleepTime > 0`, sleep until the
deadline; else count and report the overrun and resynchronise (R282, R284, R285, R289). -/
def schedFinish (now wake : Time) (s : State) : State :=
  if s.sched.started = true then
    let s := s.readNow now
    let deadline := s.sched.deadline + s.period
    let sleepTime := deadline - s.now
    if 0 < sleepTime then { s.sleepUntil deadline wake with sched := { s.sched with deadline := deadline } }
    else
      { s with sched := { s.sched with
          deadline := s.now
          missed := s.sched.missed + 1
          reports := s.sched.reports ++ [.deadlineMissed (-sleepTime)] } }
  else s

end Sys2Proof.Machine
end

