-- ==== Sys2Proof/Machine/Engine.lean ====
section
/-! DEFINITION. The machine while an operation or a frame is in progress: the engine's next step and
the sequencer's resumption when FT replies (R20, R30, R141 to R147). -/

namespace Sys2Proof.Machine

open Sys2Proof

/-- The step list of an operation; none for the rows of the other two levels. -/
def seqOpOf : Instr → Option SeqOp
  | .reset => some resetOp
  | .powerOnAll => some powerOnAllOp
  | .setRange ch rg => some (setRangeOp ch rg)
  | .getRange ch => some (getRangeOp ch)
  | .enterScan => some enterScanOp
  | .readCh ch => some (readChOp ch)
  | .scanAll => some scanAllOp
  | .getCodes => some getCodesOp
  | .toVoltage code rg => some (toVoltageOp code rg)
  | _ => none

/-- The step list of the operation in progress, the one of `cur_cw`, where `k` is one of its steps (R30). -/
def State.currentOp (s : State) : Option SeqOp :=
  match decodeHost s.curCw with
  | .ok i => match seqOpOf i with
    | some op => if s.seqK < op.steps then some op else none
    | none => none
  | .error _ => none

/-- SEQ goes on with the operation in progress, if one is. -/
def State.resume (s : State) : Host.Outcome State Fault Refusal :=
  if s.busy = true ∧ s.bench = false then
    match s.currentOp with
    | some op => .next (op.run seqFuel s)
    | none => .fault .noSuchStep
  else .next s

/-- FT's reply: to the bench that asked, or to SEQ, which finishes its micro-step. -/
def State.takeReply (s : State) (r : FtReply) : State :=
  if s.bench = true then { s with busy := false, bench := false, ftReply := some r }
  else match s.currentOp with
    | some op => op.reply s.seqK r s
    | none => s

/-- The last step of a frame: the settle delay is over and FT replies (R144). -/
def State.finishFrame (s : State) : State :=
  let (t, r) := s.endSettle
  t.takeReply r

/-- A step of the settle count (R144). -/
def State.settleTick (s : State) : State := { s with ft := { s.ft with settleCnt := s.ft.settleCnt - 1 } }

/-- A step in `ft_state = Settle`: the count goes down; at its end FT replies, and SEQ goes on. -/
def State.settleStep (s : State) : Host.Outcome State Fault Refusal :=
  if s.ft.settleCnt ≤ 1 then
    if s.bench = true ∨ s.currentOp.isSome = true then (s.tick State.finishFrame).resume
    else .fault .noSuchStep
  else .next (s.tick State.settleTick)

/-- The next step of the agent whose turn it is while an operation or a frame is in progress: "while FT
performs a transaction SEQ waits for it" (R20). -/
def State.proceed (s : State) : Host.Outcome State Fault Refusal :=
  match s.ft.state with
  | .shift => .next (s.tick State.shiftStep)
  | .settle => s.settleStep
  | .idle => s.resume

end Sys2Proof.Machine
end

