-- ==== Sys2Proof/Machine/Dispatch.lean ====
section
/-! DEFINITION. `exec`: one arm for each row of spec/opcode_table.json. -/

namespace Sys2Proof.Machine

open Sys2Proof

/-- The meaning of an instruction in a state. -/
def exec (i : Instr) (s : State) : Host.Outcome State Fault Refusal :=
  match i with
  | .reset => Sys2Proof.Machine.execReset s
  | .powerOnAll => Sys2Proof.Machine.execPowerOnAll s
  | .setRange ch rg => Sys2Proof.Machine.execSetRange ch rg s
  | .getRange ch => Sys2Proof.Machine.execGetRange ch s
  | .enterScan => Sys2Proof.Machine.execEnterScan s
  | .readCh ch => Sys2Proof.Machine.execReadCh ch s
  | .scanAll => Sys2Proof.Machine.execScanAll s
  | .getCodes => Sys2Proof.Machine.execGetCodes s
  | .toVoltage code rg => Sys2Proof.Machine.execToVoltage code rg s
  | .transact wsel payload => Sys2Proof.Machine.execTransact wsel payload s
  | .writeReg a v => Sys2Proof.Machine.execWriteReg a v s
  | .wNoOp => Sys2Proof.Machine.execWNoOp s
  | .wRst => Sys2Proof.Machine.execWRst s
  | .wAutoRst => Sys2Proof.Machine.execWAutoRst s
  | .wManCh0 => Sys2Proof.Machine.execWManCh0 s
  | .wManCh1 => Sys2Proof.Machine.execWManCh1 s
  | .wManCh2 => Sys2Proof.Machine.execWManCh2 s
  | .wManCh3 => Sys2Proof.Machine.execWManCh3 s
  | .wManCh4 => Sys2Proof.Machine.execWManCh4 s
  | .wManCh5 => Sys2Proof.Machine.execWManCh5 s
  | .wManCh6 => Sys2Proof.Machine.execWManCh6 s
  | .wManCh7 => Sys2Proof.Machine.execWManCh7 s
  | .wWr a v => Sys2Proof.Machine.execWWr a v s
  | .wWrAutoSeqEn => Sys2Proof.Machine.execWWrAutoSeqEn s
  | .wWrChPwrDn => Sys2Proof.Machine.execWWrChPwrDn s
  | .wWrRange0 v => Sys2Proof.Machine.execWWrRange0 v s
  | .wWrRange1 v => Sys2Proof.Machine.execWWrRange1 v s
  | .wWrRange2 v => Sys2Proof.Machine.execWWrRange2 v s
  | .wWrRange3 v => Sys2Proof.Machine.execWWrRange3 v s
  | .wWrRange4 v => Sys2Proof.Machine.execWWrRange4 v s
  | .wWrRange5 v => Sys2Proof.Machine.execWWrRange5 v s
  | .wWrRange6 v => Sys2Proof.Machine.execWWrRange6 v s
  | .wWrRange7 v => Sys2Proof.Machine.execWWrRange7 v s

end Sys2Proof.Machine
end

