-- ==== Sys2Proof/Machine/Step.lean ====
section
/-! DEFINITION. One step of the machine: the next move of whichever agent the state says moves next. -/

namespace Sys2Proof.Machine

open Sys2Proof

/-- The instruction of a word of a port runs with that port; an illegal word is answered (R103). -/
def State.runWord (s : State) (p : Port) (cw : HostWord) : Host.Outcome State Fault Refusal :=
  match decodeHost cw with
  | .ok i => exec i { s with port := p }
  | .error _ => .next (s.illegalWord p cw)

/-- The instruction of a transport request runs; an illegal request is answered (R132). -/
def State.runRequest (s : State) (rq : RequestWord) : Host.Outcome State Fault Refusal :=
  match decodeRequest rq with
  | .ok i => exec i s
  | .error _ => .next s.illegalRequest

/-- The instruction of a frame runs; a frame of no row is put on the wire like any other (R110, R131). -/
def State.runFrame (s : State) (w : Width) (tx : TxWord) : Host.Outcome State Fault Refusal :=
  match decodeFrame s.cfg w tx with
  | .ok i => exec i s
  | .error _ => .next (s.benchRequest .transact w tx)

/-- A step while port P is ready (R37): the environment's next input. With none the block is idle and
"holds all its state" (R328). -/
def State.stepFree (s : State) : Host.Outcome State Fault Refusal :=
  match s.inbox with
  | [] => .next s
  | .portP cw :: l => { s with inbox := l }.runWord .P cw
  | .portC cw :: l => { s with inbox := l }.runWord .C cw
  | .request rq :: l => { s with inbox := l }.runRequest rq
  | .frame w tx :: l => { s with inbox := l }.runFrame w tx
  | .rst k :: l => .next ({ s with inbox := l }.hwReset k)
  | .startup ranges now :: l => .next (startupMove ranges now l s)
  | .schedStart now :: l => .next (schedStart now { s with inbox := l })
  | .iterate scan8 now wake :: l => .next (iterateMove scan8 now wake l s)
  | .report :: l => .next (schedReport { s with inbox := l })
  | .finish now wake :: l => .next (schedFinish now wake { s with inbox := l })
  | .sleepMicros n wake :: l => .next ({ s with inbox := l }.sleepMicros n wake)
  | .script fresh ws :: l => .next (scriptMove fresh ws l s)

/-- A step while an operation or a frame is in progress (R27): port C is served and hardware reset is taken
if either is the next input, anything else waits and the block proceeds (R79, R340, R357). -/
def State.stepBusy (s : State) : Host.Outcome State Fault Refusal :=
  match s.inbox with
  | .portC cw :: l => { s with inbox := l }.runWord .C cw
  | .rst k :: l => .next ({ s with inbox := l }.hwReset k)
  | _ => s.proceed

/-- One step. "A parameter set that breaks a constraint is refused" (R11). -/
def step (s : State) : Host.Outcome State Fault Refusal :=
  if s.cfg.wf then
    if s.busy then s.clearOutputs.stepBusy else s.clearOutputs.stepFree
  else .refused .illegalParameters

/-- The input that presents a packet to the machine at its own level (log 10). -/
def inputOf : Packet → Input
  | .host cw => .portP cw
  | .request rq => .request rq
  | .frame w tx => .frame w tx

/-- `s` with the instruction of a table word as the next input, and nothing in progress that the input
would wait for (log 10). A number that is no packet at all leaves nothing to fetch. -/
def State.withFetchWord (s : State) (nbits w : Nat) : State :=
  { s with
    inbox := match packetOfTableWord Config.default nbits w with
      | some p => inputOf p :: s.inbox
      | none => []
    busy := false
    bench := false
    ft := { s.ft with state := .idle, cs := .deasserted } }

end Sys2Proof.Machine
end

