-- ==== Sys2Proof/Safety.lean ====
section
/-! DEFINITION. What counts as a good state (R47, R314), and what each port sees of a run. -/

namespace Sys2Proof.Machine

open Sys2Proof

/-! ## The invariants of R47 -/

/-- R47 (b): `auto_armed = 1` only under AutoSeq, and only in `Ready`, "inside ENTER_SCAN from
`Configuring` the flag is set one step before the state". -/
abbrev State.ArmedOk (s : State) : Prop :=
  s.autoArmed = true →
    s.straps.strategy = .autoSeq ∧
      (s.drvState = .ready ∨
        (s.busy = true ∧ s.bench = false ∧ s.curCw = hostWordOf .enterScan ∧ s.seqK = 3 ∧ s.drvState = .configuring))

/-- R47 (c): `cs = Asserted` implies `ft_state = Shift`. -/
abbrev State.ChipSelectOk (s : State) : Prop := s.ft.cs = .asserted → s.ft.state = .shift

/-- R47 (d): `ft_state ≠ Idle` implies `busy = 1`. -/
abbrev State.EngineOwned (s : State) : Prop := s.ft.state ≠ .idle → s.busy = true

/-- A bench occupies SEQ's place only while its frame is in progress (log 19). -/
abbrev State.BenchOk (s : State) : Prop := s.bench = true → s.busy = true ∧ s.ft.state ≠ .idle

/-- R47 (e): `RANGE[c] ≤ 0x06` for every c. -/
abbrev State.RangesOk (s : State) : Prop := ∀ c : Chan, s.range[c].toNat ≤ 6

/-- R47 (f): `buf_lock = Free`. -/
abbrev State.LockFree (s : State) : Prop := s.bufLock = .free

/-- R47 (g): `drv_state = Resetting` implies `busy = 1` and the operation in progress is RESET. -/
abbrev State.ResettingOk (s : State) : Prop :=
  s.drvState = .resetting → s.busy = true ∧ s.bench = false ∧ s.curCw = hostWordOf .reset

/-- Where the sequencer may stand in the operation in progress: at a step of its list (R30); past step 0
only in the driver state and under the strategy that step 0 let through. -/
abbrev State.PositionOk (s : State) : Prop :=
  s.busy = true → s.bench = false →
    s.currentOp.isSome = true ∧
    (s.curCw = hostWordOf .reset → s.seqK = 0 ∨ s.drvState = .resetting) ∧
    (s.seqOpCode = 6 ∨ s.seqOpCode = 7 → s.seqK = 0 ∨ s.drvState = .ready) ∧
    (s.curCw = hostWordOf .enterScan →
      s.seqK = 0 ∨
        ((s.drvState = .configuring ∨ s.drvState = .ready) ∧ (s.seqK = 3 ∨ s.straps.strategy = .autoSeq)))

/-- The steps of an operation that send a frame: only there does SEQ wait for FT. -/
def frameStep : Instr → Nat → Bool
  | .reset, k => k == 3 || k == 5
  | .powerOnAll, k => k == 1
  | .setRange _ _, k => k == 1
  | .enterScan, k => k == 1 || k == 2
  | .readCh _, k => k == 1 || k == 2
  | .scanAll, k => decide (1 ≤ k) && decide (k ≤ 9)
  | _, _ => false

/-- The operation in progress stands at a step that sends a frame. -/
def State.atFrameStep (s : State) : Bool :=
  match decodeHost s.curCw with
  | .ok i => frameStep i s.seqK
  | .error _ => false

/-- While FT works for the operation in progress, SEQ stands at the step that asked for the frame (R20). -/
abbrev State.WaitingOk (s : State) : Prop :=
  s.busy = true → s.bench = false → s.ft.state ≠ .idle → s.atFrameStep = true

/-- FT's registers: back at their idle values while idle (R131), the pulses are the bits exchanged
(R146), `mosi` is 0 outside a frame (R35). -/
abbrev State.EngineOk (s : State) : Prop :=
  (s.ft.state = .idle → s.ft.bitcnt = 0 ∧ s.ft.err = false ∧ s.ft.settleCnt = 0) ∧
  (s.ft.state ≠ .idle → s.ft.pulses = s.ft.bitcnt ∧ s.ft.bitcnt ≤ s.ft.w.bits) ∧
  (s.ft.state ≠ .shift → s.ft.mosi = false)

/-- The invariant of the machine: R47 (b) to (g) ((a) holds by definition), the sequencer's position,
FT's registers, and the canonical form of PR. -/
abbrev State.Inv (s : State) : Prop :=
  s.ArmedOk ∧ s.ChipSelectOk ∧ s.EngineOwned ∧ s.BenchOk ∧ s.RangesOk ∧ s.LockFree ∧ s.ResettingOk ∧
    s.PositionOk ∧ s.WaitingOk ∧ s.EngineOk ∧ Memory.wf s.cfg s.dev.pr = true

/-- "True after every response, whatever the status" (R314). -/
abbrev State.Quiet (s : State) : Prop :=
  s.busy = false ∧ s.ft.state = .idle ∧ s.ft.cs = .deasserted ∧ s.bufLock = .free

/-- No hardware reset is due beside a micro-step or a step of FT. -/
abbrev State.NoRst (s : State) : Prop := ∀ k : Straps, Slot.rst k ∉ s.slots

/-- R340, R342: `t` is `s` after a hardware reset with the strap pins `k`. -/
structure State.HwResetOf (s t : State) (k : Straps) : Prop where
  seq : t.drvState = .uninitialized ∧ t.initialized = false ∧ (∀ c : Chan, t.range[c] = 0x00) ∧
    t.valid = 0x00 ∧ t.svalid = 0x00 ∧ t.autoArmed = false ∧ t.busy = false ∧ t.bufLock = .free
  ft : t.ft.cs = .deasserted ∧ t.ft.state = .idle ∧ t.ft.bitcnt = 0 ∧ t.ft.err = false ∧ t.ft.settleCnt = 0
  pins : t.csN = !s.cfg.csActiveLevel ∧ t.ft.mosi = false
  ports : t.pReady = true ∧ t.cReady = true ∧ t.pResp = none ∧ t.cResp = none
  straps : t.straps = k
  kept : t.hist = s.hist ∧ t.dev = s.dev ∧ t.sched = s.sched ∧ t.now = s.now ∧ t.cfg = s.cfg

/-! ## What the owner sees -/

/-- An event of port P, of the bus or of the buffer: any but those of port C. -/
def Event.ownerSees : Event → Bool
  | .op .C _ => false
  | .snapshot .C _ _ => false
  | .resp .C _ => false
  | _ => true

/-- The events of a word of port C, accepted and answered in state `s`: R220, R231, R104 (R38). -/
def State.answersC (s : State) (cw : HostWord) : List Event :=
  match decodeHost cw with
  | .ok .getCodes =>
    [.op .C cw, .snapshot .C s.lanes s.valid, .resp .C (Response.okWith s.valid (packLanes s.lanes))]
  | .ok (.toVoltage code rg) => [.op .C cw, .resp .C (voltageResponse s.straps.coding code rg)]
  | _ => [.op .C cw, .resp .C (Response.error .invalidArgument)]

/-- The words of port C that a slot holds. -/
def Slot.words : Slot → List HostWord
  | .quiet => []
  | .before cws => cws
  | .after cws => cws
  | .rst _ => []

/-- The state without what port C leaves in it: its queued words, its response, its events. With the words
goes the rest of the slots, so two states are compared by it where no hardware reset is due. -/
def State.ownerView (s : State) : State :=
  { s with slots := [], cResp := none, hist := s.hist.filter Event.ownerSees }

/-- What a step leaves in a run: the next state's owner view, or the reason it stopped. -/
def ownerOutcome : Host.Outcome State Fault Refusal → Host.Outcome State Fault Refusal
  | .next s => .next s.ownerView
  | .fault r => .fault r
  | .refused r => .refused r

/-! ## The environment's answers, as premises -/

/-- The word a frame receives where BUS completes it: a draw, or what DEV returns (R140, R250). -/
def BusAnswer.word (d : Dev) (w : Width) : BusAnswer → Option (BitVec 32)
  | .answer rx => some rx
  | .device noise => some (d.returns w noise)
  | _ => none

/-- BUS was not ready, or reported an error during the frame (R133, R136). -/
def BusAnswer.isFault : BusAnswer → Bool
  | .notReady => true
  | .fault _ _ _ => true
  | _ => false

/-- The event of a frame that faults (R14). -/
def BusAnswer.faultEvent (w : Width) (tx : TxWord) : BusAnswer → Event
  | .notReady => .refused w tx
  | _ => .frame w tx .fault

/-- DEV after a frame that faults: it acted on the frame or not (93 U14). -/
def BusAnswer.devAfterFault (c : Config) (d : Dev) (w : Width) (tx : TxWord) : BusAnswer → Dev
  | .fault _ _ true => d.receive c w tx
  | _ => d

/-- FT after a frame that faults: untouched by a refused request, else idle again (R133, R136). -/
def BusAnswer.ftAfterFault (ft : Ft) (kind : ReqKind) (w : Width) (tx : TxWord) : BusAnswer → Ft
  | .fault rx bits _ => Ft.afterFrame kind w tx rx (w.errorStep bits + 1)
  | _ => ft

/-- A frame as an operation sends it. -/
abbrev FrameReq := Width × TxWord

/-- The words received where the answers `b` complete all of `frames`, with DEV and the answers left
after them; none where an answer is missing, faults, or is bit by bit. -/
def exchange (c : Config) : Dev → List FrameReq → List BusAnswer → Option (List (BitVec 32) × Dev × List BusAnswer)
  | d, [], b => some ([], d, b)
  | _, _ :: _, [] => none
  | d, f :: fs, a :: b =>
    match a.word d f.1 with
    | none => none
    | some rx =>
      match exchange c (d.receive c f.1 f.2) fs b with
      | none => none
      | some (rs, d', b') => some (rx :: rs, d', b')

/-- The events of completed frames (R14). -/
def frameEvents (fs : List FrameReq) (rs : List (BitVec 32)) : List Event :=
  List.zipWith (fun f rx => .frame f.1 f.2 (.rxOk (f.1.trunc rx))) fs rs

/-- A command frame. -/
def cmdReq (cmd : BitVec 16) : FrameReq := (.w32, cmdFrame cmd)

/-- A register frame. -/
def regReq (a : BitVec 7) (v : Byte) : FrameReq := (.w24, regFrame a v)

/-- The frames of RESET (R166). -/
def resetFrames (c : Config) : List FrameReq := [cmdReq c.opcRst, regReq c.regChPwrDn 0]

/-- The frames of ENTER_SCAN under AutoSeq (R184). -/
def enterScanFrames (c : Config) : List FrameReq := [regReq c.regAutoSeqEn c.seqEnAll, cmdReq c.opcAutoRst]

/-- The frames of READ_CH (R200). -/
def readChFrames (c : Config) (n : Chan) : List FrameReq := [cmdReq c.opcManCh[n], cmdReq c.opcNoOp]

/-- The nine frames of a manual pass (R207, R208). -/
def manualFrames (c : Config) : List FrameReq :=
  channels.map (fun n => cmdReq c.opcManCh[n]) ++ [cmdReq c.opcNoOp]

/-- The eight frames of an armed auto-sequence pass (R207, R213). -/
def autoFrames (c : Config) : List FrameReq :=
  List.replicate 7 (cmdReq c.opcNoOp) ++ [cmdReq c.opcAutoRst]

/-- The frames of the startup sequence (R345). -/
def initFrames (c : Config) (k : Strategy) (ranges : Vector Byte 8) : List FrameReq :=
  resetFrames c ++ channels.map (fun n => regReq (c.rangeReg n) ranges[n]) ++ [regReq c.regChPwrDn 0]
    ++ (match k with
      | .manual => []
      | .autoSeq => enterScanFrames c)

/-- The result words of a pass, the j-th in lane j: "`rx[15:0]` and nothing else" (R113, R206). -/
def resultLanes (rs : List (BitVec 32)) : Vector Code 8 :=
  Vector.ofFn fun c => (rs.getD c.val 0).extractLsb' 0 16

/-- The flags of channels 0..n−1. -/
def firstFlags (n : Nat) : BitVec 8 := BitVec.ofNat 8 (2 ^ n - 1)

/-- `v` with the result words of a pass in its first lanes. -/
def overlay (v : Vector Code 8) (rs : List (BitVec 32)) : Vector Code 8 :=
  Vector.ofFn fun c => if c.val < rs.length then (rs.getD c.val 0).extractLsb' 0 16 else v[c]

/-- The frames of the pass that a SCAN_ALL makes from this state (R207, R214). -/
def State.passFrames (s : State) : List FrameReq :=
  match s.straps.strategy with
  | .manual => manualFrames s.cfg
  | .autoSeq => if s.autoArmed then autoFrames s.cfg else cmdReq s.cfg.opcAutoRst :: autoFrames s.cfg

/-- The number of priming frames of that pass, whose response is discarded (R207). -/
def State.primingFrames (s : State) : Nat :=
  if s.straps.strategy = .autoSeq ∧ s.autoArmed = true then 0 else 1

/-- The commit of a pass with the results `results` (R211): they are channels 0..n−1's codes, the other
channels are missing. -/
def State.passed (s : State) (results : List (BitVec 32)) : State :=
  { s with
    stage := overlay s.stage results, svalid := firstFlags results.length,
    code := overlay s.code results, valid := firstFlags results.length,
    epoch := s.epoch + 1, bufLock := .free }

/-- What every operation of port P leaves that ends at step `k` with response `r`, having emitted `evs`:
R162, R165. -/
def State.answered (s : State) (cw : HostWord) (k : Nat) (r : Response) (evs : List Event) : State :=
  { s with
    busy := false, curCw := cw, seqK := k, curStatus := r.status, pResp := some r,
    hist := s.hist ++ .op .P cw :: (evs ++ [.resp .P r]) }

/-- A frame of a bench that BUS completed (R131), DEV then being `d`. -/
def State.wireDone (s : State) (kind : ReqKind) (w : Width) (tx : TxWord) (rx : BitVec 32) (b : List BusAnswer)
    (d : Dev) : State :=
  { s with
    busIn := b, ft := Ft.afterFrame kind w tx rx w.bits, dev := d,
    hist := s.hist ++ [.frame w (w.trunc tx) (.rxOk (w.trunc rx))],
    ftReply := some (replyOf kind (.rxOk (w.trunc rx))), bench := false }

/-- A frame of a bench that BUS refused or faulted (R133, R136). -/
def State.wireFaulted (s : State) (kind : ReqKind) (w : Width) (tx : TxWord) (a : BusAnswer) (b : List BusAnswer) :
    State :=
  { s with
    busIn := b, ft := a.ftAfterFault s.ft kind w tx, dev := a.devAfterFault s.cfg s.dev w (w.trunc tx),
    hist := s.hist ++ [a.faultEvent w (w.trunc tx)], ftReply := some ⟨.busFault, 0⟩, bench := false }

/-- The acceptance events of port P. -/
def Event.isOpP : Event → Bool
  | .op .P _ => true
  | _ => false

/-- The events of the bus: transactions and refused requests. -/
def Event.isFrame : Event → Bool
  | .frame _ _ _ => true
  | .refused _ _ => true
  | _ => false

/-- The reports of missed deadlines (R285). -/
def SchedReport.isMissed : SchedReport → Bool
  | .deadlineMissed _ => true
  | _ => false

/-- The machine steps of an iteration whose frames BUS answers whole: its own move, two for each word, and
steps 2 to 5 (R282, R222). -/
def iterationSteps (scan8 : Bool) : Nat := if scan8 then 18 else 4

/-- BUS answers every frame whole: it hangs at none and takes none bit by bit. -/
def BusAnswer.isWhole : BusAnswer → Bool
  | .bitwise => false
  | _ => true

/-- Instructions run one after the other, as long as each answers a next state. -/
def execAll : List Instr → State → Option State
  | [], s => some s
  | i :: is, s =>
    match exec i s with
    | .next t => execAll is t
    | _ => none

/-- The illegal encodings of R103: a reserved OP, nonzero reserved bits, or a must-be-zero field that
is not 0 (R92 to R94). -/
def illegalEncoding (cw : HostWord) : Prop :=
  let op := (cw.extractLsb' 28 4).toNat
  op = 0 ∨ 10 ≤ op ∨ cw.extractLsb' 24 4 ≠ (0 : BitVec 4) ∨
    ((op = 1 ∨ op = 2 ∨ op = 5 ∨ op = 7 ∨ op = 8) ∧ cw.extractLsb' 0 24 ≠ (0 : BitVec 24)) ∨
    ((op = 4 ∨ op = 6) ∧ cw.extractLsb' 0 16 ≠ (0 : BitVec 16)) ∨
    (op = 3 ∧ cw.extractLsb' 0 8 ≠ (0 : BitVec 8))

/-! ## The bits of a frame, as BUS supplies them -/

/-- The idle steps before bit `k`: `gaps k` of them before the first bit of each later byte (R145). -/
def gapSamples (gaps : Nat → Nat) (k : Nat) : List LineSample :=
  if 0 < k ∧ k % 8 = 0 then List.replicate (gaps k) (.gap false false) else []

/-- The samples of the first `n` bits of a frame that receives `rx` (R64, R142, R145). -/
def bitSamples (w : Width) (rx : BitVec 32) (gaps : Nat → Nat) (n : Nat) : List LineSample :=
  (List.range n).flatMap fun k => gapSamples gaps k ++ [.bit (w.wireBit rx k) false false]

/-- The samples of a frame that receives `rx`. -/
def wireSamples (w : Width) (rx : BitVec 32) (gaps : Nat → Nat) : List LineSample := bitSamples w rx gaps w.bits

/-- The samples of a frame whose shift step `k` sees `bus_err` (R136, R142). -/
def faultSamples (w : Width) (rx : BitVec 32) (gaps : Nat → Nat) (k : Nat) (acts : Bool) : List LineSample :=
  bitSamples w rx gaps k ++ gapSamples gaps k ++ [.bit (w.wireBit rx k) true acts]

/-- The samples of a frame that sees `bus_err` in a gap before bit `k` (R145). -/
def gapFaultSamples (w : Width) (rx : BitVec 32) (gaps : Nat → Nat) (k : Nat) (acts : Bool) : List LineSample :=
  bitSamples w rx gaps k ++ gapSamples gaps k ++ [.gap true acts]

/-- The width of the one frame of a transport request or a wire frame; none for a host word and for an
illegal request. -/
def benchWidth (c : Config) : Instr → Option Width
  | .transact wsel _ => widthOfWsel wsel
  | .writeReg _ _ => some .w24
  | i => match encode c i with
    | .frame w _ => some w
    | _ => none

/-- Taken bit by bit from `samples`, a frame of width `w` ends, as the owner sees it, where the frame ends
that BUS answers whole by `whole` (R147). First for a frame of a bench, then for the frame of an operation
of SEQ, whichever of its frames it is: the answers `pre` have been used up by the frames before it. -/
def EngineMatches (k : CsImpl) (w : Width) (whole : BusAnswer) (samples : List LineSample) : Prop :=
  (∀ (s : State) (i : Instr) (b : List BusAnswer) (rest : List LineSample),
    s.cfg.wf = true → s.ft.state = .idle → s.busy = false → s.bufLock = .free → s.NoRst → s.inbox = [] →
    s.straps.csImpl = k → benchWidth s.cfg i = some w →
    s.busIn = .bitwise :: b → s.lineIn = samples ++ rest →
      ∃ s₁ t u, exec i s = .next s₁ ∧ exec i { s with busIn := whole :: b, lineIn := rest } = .next t ∧
        Sys2Proof.core.run (samples.length + 1 + max 1 s.cfg.settleTicks) s₁ = .next u ∧
        u.ownerView = { t with pResp := none }.ownerView) ∧
  (∀ (s s₁ : State) (i : Instr) (pre b : List BusAnswer) (rest : List LineSample),
    s.cfg.wf = true → s.ft.state = .idle → s.busy = false → s.bench = false → s.bufLock = .free → s.NoRst →
    s.inbox = [] → s.pResp = none → s.ftReply = none → s.straps.csImpl = k →
    s.busIn = pre ++ .bitwise :: b → s.lineIn = samples ++ rest →
    exec i s = .next s₁ → s₁.bench = false → s₁.ft.state = .shift → s₁.ft.w = w → s₁.busIn = b →
      ∃ t u, exec i { s with busIn := pre ++ whole :: b, lineIn := rest } = .next t ∧
        Sys2Proof.core.run (samples.length + 1 + max 1 s.cfg.settleTicks) s₁ = .next u ∧
        u.ownerView = t.ownerView)

end Sys2Proof.Machine
end

