-- ==== Sys2Proof/Certificates/Slice0/Obligations.lean ====
section
/-! DEFINITION. The statements about this model that are to be proved, in the order of OBLIGATIONS.json. -/

open Sys2Proof Sys2Proof.Machine

/-! ## Encodings (30_encoding.md) -/

/-- R90 to R112: what the encoder writes for an instruction, the decoder reads back, at every parameter
set that meets R11. -/
def Obligations.DecodeOfEncodeIsTheInstruction : Prop :=
  ∀ (c : Config) (i : Instr), c.addressesOk = true → i.wellFormed c = true → decode c (encode c i) = .ok i

/-- R90 to R112: a packet that decodes is the packet the encoder writes, so no two packets share an
instruction; and what is decoded is well formed (R112: the specific row wins over W.WR). -/
def Obligations.EncodeOfDecodeIsThePacket : Prop :=
  ∀ (c : Config) (p : Packet) (i : Instr), decode c p = .ok i →
    encode c i = p ∧ (c.addressesOk = true → i.wellFormed c = true)

/-- Words of the spec's own tables and examples (R96, R106, R111, R112, R115), one of each format: their level
is read as log 32 says (the model's choice), and they are words at the default parameters (PRESUMED, log 9).
-/
def Obligations.TableWordsDecode : Prop :=
  decodeTableWord 32 0x70000000 = some .scanAll ∧
    decodeTableWord 32 0x60050000 = some (.readCh 5) ∧
    decodeTableWord 32 0x30030500 = some (.setRange 3 5) ∧
    decodeTableWord 32 0x90004000 = some (.toVoltage 0x4000 0) ∧
    decodeTableWord 40 0x2C4000000 = some (.transact 2 0xC4000000) ∧
    decodeTableWord 40 0x500000200 = some (.writeReg 2 0) ∧
    decodeTableWord 32 0xCC000000 = some .wManCh3 ∧
    decodeTableWord 24 0x110500 = some (.wWrRange3 5) ∧
    decodeTableWord 24 0x03FF00 = some .wWrAutoSeqEn ∧
    decodeTableWord 24 0x0BFE00 = some (.wWrRange0 0xFE) ∧
    decodeTableWord 24 0x030F00 = some (.wWr 1 0x0F)

/-- R103: the illegal encodings are exactly the words that decode to nothing; one is answered at once on
either port, and changes nothing but what acceptance and response write. -/
def Obligations.IllegalWordsAreAnswered : Prop :=
  (∀ cw : HostWord, (∃ e, decodeHost cw = .error e) ↔ illegalEncoding cw) ∧
  (∀ (s : State) (cw : HostWord) (l : List Input), s.cfg.wf = true → s.busy = false →
    s.inbox = .portP cw :: l → illegalEncoding cw →
      step s = .next ({ s.clearOutputs with inbox := l }.answered cw 0 (Response.error .invalidArgument) [])) ∧
  (∀ (s : State) (cw : HostWord) (l : List Input), s.cfg.wf = true →
    s.inbox = .portC cw :: l → illegalEncoding cw →
      step s = .next { s.clearOutputs with
        inbox := l, cResp := some (Response.error .invalidArgument),
        hist := s.hist ++ [.op .C cw, .resp .C (Response.error .invalidArgument)] })

/-- R104: on port C a legal word of any other operation is answered as an illegal encoding is, whether
or not an operation is in progress. -/
def Obligations.PortCRefusesOtherOperations : Prop :=
  ∀ (s : State) (cw : HostWord) (i : Instr) (l : List Input), s.cfg.wf = true →
    s.inbox = .portC cw :: l → decodeHost cw = .ok i → i ≠ .getCodes → (∀ code rg, i ≠ .toVoltage code rg) →
      step s = .next { s.clearOutputs with
        inbox := l, port := .C, cResp := some (Response.error .invalidArgument),
        hist := s.hist ++ [.op .C cw, .resp .C (Response.error .invalidArgument)] }

/-! ## The step and the machine as a whole -/

/-- A step runs the decoded instruction: of a packet presented at its own level while nothing is in
progress, and of a word of port C at any time (R37, R38, R90). Around `exec` the step takes the input off
the queue, clears the outputs presented in the last step, and notes the port. The inbox, and outputs lasting
one step, are the model's choice (log 10, log 29). -/
def Obligations.StepRunsTheDecodedInstruction : Prop :=
  (∀ (s : State) (cw : HostWord) (i : Instr) (l : List Input), s.cfg.wf = true → s.busy = false →
    s.inbox = .portP cw :: l → decode s.cfg (.host cw) = .ok i →
      step s = exec i { s.clearOutputs with inbox := l, port := .P }) ∧
  (∀ (s : State) (cw : HostWord) (i : Instr) (l : List Input), s.cfg.wf = true →
    s.inbox = .portC cw :: l → decode s.cfg (.host cw) = .ok i →
      step s = exec i { s.clearOutputs with inbox := l, port := .C }) ∧
  (∀ (s : State) (rq : RequestWord) (i : Instr) (l : List Input), s.cfg.wf = true → s.busy = false →
    s.inbox = .request rq :: l → decode s.cfg (.request rq) = .ok i →
      step s = exec i { s.clearOutputs with inbox := l }) ∧
  (∀ (s : State) (w : Width) (tx : TxWord) (i : Instr) (l : List Input), s.cfg.wf = true → s.busy = false →
    s.inbox = .frame w tx :: l → decode s.cfg (.frame w tx) = .ok i →
      step s = exec i { s.clearOutputs with inbox := l })

/-- R27, R37: while `busy = 1` port P accepts nothing: no word is accepted, the one in progress stays the
one in progress, and a word presented there waits. -/
def Obligations.BusyPortPAcceptsNothing : Prop :=
  ∀ s t : State, s.busy = true → step s = .next t →
    t.hist.filter Event.isOpP = s.hist.filter Event.isOpP ∧
    (t.busy = true → t.curCw = s.curCw) ∧
    (∀ cw l, s.inbox = .portP cw :: l → t.inbox = s.inbox)

/-- R11: a parameter set that breaks one of the four constraints is refused; one that keeps them, and the
bounds of R8 on the times, is not; the defaults keep them. -/
def Obligations.BrokenParametersAreRefused : Prop :=
  let keeps : Config → Prop := fun c =>
    c.commands.Nodup ∧ c.regRangeBase.toNat + 7 ≤ 0x7F ∧ c.regAutoSeqEn ≠ c.regChPwrDn ∧
      ¬(c.regRangeBase.toNat ≤ c.regAutoSeqEn.toNat ∧ c.regAutoSeqEn.toNat ≤ c.regRangeBase.toNat + 7) ∧
      ¬(c.regRangeBase.toNat ≤ c.regChPwrDn.toNat ∧ c.regChPwrDn.toNat ≤ c.regRangeBase.toNat + 7)
  (∀ s : State, ¬keeps s.cfg → step s = .refused .illegalParameters) ∧
  (∀ s : State, keeps s.cfg → s.cfg.timesOk = true → step s ≠ .refused .illegalParameters) ∧
  keeps Config.default ∧ Config.default.timesOk = true

/-- The invariant (R47 b to g, the sequencer's position, FT's registers, the form of PR) holds right after
reset, whatever the straps and the parameters, and after every hardware reset (R340). Registers R40 gives no
reset value for hold the model's own (logs 1 to 4). -/
def Obligations.ResetMeetsTheInvariant : Prop :=
  (∀ (k : Straps) (c : Config), ({ State.reset with straps := k, cfg := c } : State).Inv) ∧
  (∀ (s : State) (k : Straps), Memory.wf s.cfg s.dev.pr = true → (s.hwReset k).Inv)

/-- Every step keeps the invariant: R47 (b) to (g) among others. The position of a step, the canonical form
of PR and the waiting states are the model's own clauses. -/
def Obligations.StepKeepsTheInvariant : Prop := ∀ s t : State, s.Inv → step s = .next t → t.Inv

/-- With legal parameters, a step from a state of the invariant always answers a next state: the machine's
own fault and refusal are never met in a run. The fault and the refusal are the model's own (log 24, log 9).
-/
def Obligations.InvariantStepsAnswerNext : Prop :=
  ∀ s : State, s.Inv → s.cfg.wf = true → ∃ t, step s = .next t

/-- R8 to R10, R28, R44: no step writes a parameter, and only hardware reset samples the straps. -/
def Obligations.ParametersAndStrapsAreConstant : Prop :=
  ∀ s t : State, step s = .next t →
    t.cfg = s.cfg ∧ (t.straps = s.straps ∨ ∃ k, t.straps = k ∧ (s.inbox.head? = some (.rst k) ∨ Slot.rst k ∈ s.slots))

/-- R14: the history is a record: a step adds events at its end and changes none. -/
def Obligations.HistoryOnlyGrows : Prop := ∀ s t : State, step s = .next t → s.hist <+: t.hist

/-- R38, R74, R79, R80, R362: two states that differ only in what the owner does not see (the words CONS has
queued for port C and the order they are taken in, port C's response, port C's events) make the same step,
as the owner sees it, and run an instruction to the same end. When words of port C come is an input of the
model (log 11). -/
def Obligations.PortCIsInvisibleToTheOwner : Prop :=
  ∀ s u : State, s.bufLock = .free → s.NoRst → u.NoRst → s.ownerView = u.ownerView →
    ownerOutcome (step s) = ownerOutcome (step u) ∧ ∀ i : Instr, ownerOutcome (exec i s) = ownerOutcome (exec i u)

/-- R38, R79, R321, R357: a word of port C is answered in the step that accepts it, whatever is in progress,
and nothing the owner sees changes. When port C is served inside an operation is an input of the model (log
11). -/
def Obligations.PortCIsAlwaysServed : Prop :=
  ∀ (s : State) (cw : HostWord) (l : List Input), s.cfg.wf = true → s.bufLock = .free →
    s.inbox = .portC cw :: l →
      ∃ t r, step s = .next t ∧ t.cResp = some r ∧
        t.ownerView = { s.clearOutputs with inbox := l, port := t.port }.ownerView

/-- R78, R80: a snapshot taken in a step shows the record as it stands before the step or as it stands after
it, whole; never part of a commit. What a missing lane reads as is the model's choice: a free value (log 6).
-/
def Obligations.SnapshotsAreNeverTorn : Prop :=
  ∀ s t : State, s.NoRst → step s = .next t → ∀ p codes v, Event.snapshot p codes v ∈ t.hist.drop s.hist.length →
    (codes = s.lanes ∧ v = s.valid) ∨ (codes = t.lanes ∧ v = t.valid)

/-- R340, R342: hardware reset, taken between two steps at any time, also while an operation or a frame is
in progress; in the stead of any step of FT or of any micro-step of an operation that step resumes; and in
the stead of the first micro-step of an operation just accepted. That SCHED, TMR, the history and the inputs
stay is the model's choice (log 20). -/
def Obligations.HardwareResetLeavesTheResetValues : Prop :=
  (∀ (s : State) (k : Straps) (l : List Input), s.cfg.wf = true → s.inbox = .rst k :: l →
    ∃ t, step s = .next t ∧ s.HwResetOf t k ∧ t.inbox = l) ∧
  (∀ (s : State) (k : Straps) (l : List Slot), s.Inv → s.cfg.wf = true → s.busy = true → s.inbox = [] →
    s.slots = .rst k :: l → ∃ t, step s = .next t ∧ s.HwResetOf t k ∧ t.slots = l) ∧
  (∀ (s : State) (i : Instr) (cw : HostWord) (k : Straps) (l : List Slot), encode s.cfg i = .host cw →
    s.port = .P → s.ft.state = .idle → s.slots = .rst k :: l →
      ∃ t, exec i s = .next t ∧ (s.emit (.op .P cw)).HwResetOf t k ∧ t.slots = l)

/-- R314: what holds after every response on port P, whatever its status. The settle delay counted in bit
steps is the model's choice (log 14). -/
def Obligations.QuietAfterEveryResponse : Prop :=
  ∀ (s t : State) (r : Response), s.Inv → step s = .next t → t.pResp = some r →
    t.Quiet ∧ t.ft.err = false ∧ t.ft.settleCnt = 0 ∧ t.curStatus = r.status

/-! ## Configuration operations (41_driver_init.md) -/

/-- R166: RESET completes, or faults at step 3, or at step 5. What DEV does and answers is the model's
choice (DEVREF, log 15); the tags of missing lanes are too (log 6). -/
def Obligations.ResetRunsItsStepList : Prop :=
  ∀ s : State, s.port = .P → s.ft.state = .idle → s.bufLock = .free → s.NoRst →
    (∀ rx₁ rx₂ d b, exchange s.cfg s.dev (resetFrames s.cfg) s.busIn = some ([rx₁, rx₂], d, b) →
      ∃ t, exec .reset s = .next t ∧
        t.ownerView =
          { s.ownerView.answered 0x10000000 6 Response.plain
              [.csDeassert, .delay s.cfg.tPowerStable, .frame .w32 (cmdFrame s.cfg.opcRst) (.rxOk rx₁),
                .delay s.cfg.tResetSettle,
                .frame .w24 (regFrame s.cfg.regChPwrDn 0) (.rxOk (Width.w24.trunc rx₂))] with
            drvState := .configuring, autoArmed := false, range := Vector.replicate 8 0, valid := 0,
            epoch := s.epoch + 1, dev := d, busIn := b,
            ft := Ft.afterFrame .writeReg .w24 (regFrame s.cfg.regChPwrDn 0) rx₂ 24 }) ∧
    (∀ a b, s.busIn = a :: b → a.isFault = true →
      ∃ t, exec .reset s = .next t ∧
        t.ownerView =
          { s.ownerView.answered 0x10000000 7 (Response.error .busFault)
              [.csDeassert, .delay s.cfg.tPowerStable, a.faultEvent .w32 (cmdFrame s.cfg.opcRst)] with
            drvState := .uninitialized, autoArmed := false, range := Vector.replicate 8 0, valid := 0,
            epoch := s.epoch + 1, busIn := b,
            dev := a.devAfterFault s.cfg s.dev .w32 (cmdFrame s.cfg.opcRst),
            ft := a.ftAfterFault { s.ft with cs := .deasserted } .transact .w32 (cmdFrame s.cfg.opcRst) }) ∧
    (∀ a₁ rx₁ a₂ b, s.busIn = a₁ :: a₂ :: b → a₁.word s.dev .w32 = some rx₁ → a₂.isFault = true →
      ∃ t, exec .reset s = .next t ∧
        t.ownerView =
          { s.ownerView.answered 0x10000000 7 (Response.error .busFault)
              [.csDeassert, .delay s.cfg.tPowerStable, .frame .w32 (cmdFrame s.cfg.opcRst) (.rxOk rx₁),
                .delay s.cfg.tResetSettle, a₂.faultEvent .w24 (regFrame s.cfg.regChPwrDn 0)] with
            drvState := .uninitialized, autoArmed := false, range := Vector.replicate 8 0, valid := 0,
            epoch := s.epoch + 1, busIn := b,
            dev := a₂.devAfterFault s.cfg (s.dev.receive s.cfg .w32 (cmdFrame s.cfg.opcRst)) .w24
              (regFrame s.cfg.regChPwrDn 0),
            ft := a₂.ftAfterFault (Ft.afterFrame .transact .w32 (cmdFrame s.cfg.opcRst) rx₁ 32) .writeReg .w24
              (regFrame s.cfg.regChPwrDn 0) })

/-- R171: POWER_ON_ALL completes, or its one frame faults. What DEV does and answers is the model's choice
(DEVREF, log 15). -/
def Obligations.PowerOnAllRunsItsStepList : Prop :=
  ∀ (s : State) (a : BusAnswer) (b : List BusAnswer),
    s.port = .P → s.ft.state = .idle → s.bufLock = .free → s.NoRst → s.busIn = a :: b →
    (∀ rx, a.word s.dev .w24 = some rx →
      ∃ t, exec .powerOnAll s = .next t ∧
        t.ownerView =
          { s.ownerView.answered 0x20000000 2 Response.plain
              [.frame .w24 (regFrame s.cfg.regChPwrDn 0) (.rxOk (Width.w24.trunc rx))] with
            autoArmed := false, busIn := b,
            dev := s.dev.receive s.cfg .w24 (regFrame s.cfg.regChPwrDn 0),
            ft := Ft.afterFrame .writeReg .w24 (regFrame s.cfg.regChPwrDn 0) rx 24 }) ∧
    (a.isFault = true →
      ∃ t, exec .powerOnAll s = .next t ∧
        t.ownerView =
          { s.ownerView.answered 0x20000000 1 (Response.error .busFault)
              [a.faultEvent .w24 (regFrame s.cfg.regChPwrDn 0)] with
            drvState := .uninitialized, autoArmed := false, busIn := b,
            dev := a.devAfterFault s.cfg s.dev .w24 (regFrame s.cfg.regChPwrDn 0),
            ft := a.ftAfterFault s.ft .writeReg .w24 (regFrame s.cfg.regChPwrDn 0) })

/-- R175: SET_RANGE refuses illegal operands before the bus, records the range only where its frame
completes, and records nothing where it faults. What DEV does and answers is the model's choice (DEVREF, log
15). -/
def Obligations.SetRangeRunsItsStepList : Prop :=
  ∀ (s : State) (ch rg : Byte), s.port = .P → s.ft.state = .idle → s.bufLock = .free → s.NoRst →
    (7 < ch.toNat ∨ 6 < rg.toNat →
      ∃ t, exec (.setRange ch rg) s = .next t ∧
        t.ownerView = s.ownerView.answered (0x30#8 ++ ch ++ rg ++ 0x00#8) 0 (Response.error .invalidArgument) []) ∧
    (∀ (c : Chan) (a : BusAnswer) (b : List BusAnswer), ch.toNat = c.val → rg.toNat ≤ 6 → s.busIn = a :: b →
      (∀ rx, a.word s.dev .w24 = some rx →
        ∃ t, exec (.setRange ch rg) s = .next t ∧
          t.ownerView =
            { s.ownerView.answered (0x30#8 ++ ch ++ rg ++ 0x00#8) 2 Response.plain
                [.frame .w24 (regFrame (s.cfg.rangeReg c) rg) (.rxOk (Width.w24.trunc rx))] with
              range := s.range.set c rg, autoArmed := false, busIn := b,
              dev := s.dev.receive s.cfg .w24 (regFrame (s.cfg.rangeReg c) rg),
              ft := Ft.afterFrame .writeReg .w24 (regFrame (s.cfg.rangeReg c) rg) rx 24 }) ∧
      (a.isFault = true →
        ∃ t, exec (.setRange ch rg) s = .next t ∧
          t.ownerView =
            { s.ownerView.answered (0x30#8 ++ ch ++ rg ++ 0x00#8) 1 (Response.error .busFault)
                [a.faultEvent .w24 (regFrame (s.cfg.rangeReg c) rg)] with
              drvState := .uninitialized, autoArmed := false, busIn := b,
              dev := a.devAfterFault s.cfg s.dev .w24 (regFrame (s.cfg.rangeReg c) rg),
              ft := a.ftAfterFault s.ft .writeReg .w24 (regFrame (s.cfg.rangeReg c) rg) }))

/-- R176: after a SET_RANGE answered `Ok`, and whatever follows that is no RESET and no SET_RANGE of the
same channel, GET_RANGE returns the range set; after one answered `BusFault`, the range recorded before. -/
def Obligations.GetRangeReturnsTheRangeSet : Prop :=
  ∀ (ch rg : Byte) (c : Chan) (s t u v : State) (is : List Instr), ch.toNat = c.val → s.port = .P → s.NoRst →
    exec (.setRange ch rg) s = .next t → t.busy = false →
    (∀ i ∈ is, i ≠ .reset ∧ ∀ rg', i ≠ .setRange ch rg') → execAll is t = some u →
    exec (.getRange ch) u = .next v → v.busy = false →
      (t.curStatus = .ok → v.pResp = some (Response.scalar rg)) ∧
      (t.curStatus = .busFault → v.pResp = some (Response.scalar s.range[c]))

/-- R179: GET_RANGE answers the session's record in every driver state, refuses `ch > 7`, and sends and
writes nothing. The record holds 0x00 for every channel after hardware reset and after RESET. -/
def Obligations.GetRangeReadsTheRecord : Prop :=
  ∀ (s : State) (ch : Byte), s.port = .P → s.ft.state = .idle → s.bufLock = .free → s.NoRst →
    (7 < ch.toNat →
      ∃ t, exec (.getRange ch) s = .next t ∧
        t.ownerView = s.ownerView.answered (0x40#8 ++ ch ++ 0x0000#16) 0 (Response.error .invalidArgument) []) ∧
    (∀ c : Chan, ch.toNat = c.val →
      ∃ t, exec (.getRange ch) s = .next t ∧
        t.ownerView =
          s.ownerView.answered (0x40#8 ++ ch ++ 0x0000#16) 0 ⟨.ok, 0, s.range[c].setWidth 128⟩ []) ∧
    (∀ (c : Chan) (k : Straps), (s.hwReset k).range[c] = 0x00) ∧
    (∀ (c : Chan) (t : State), exec .reset s = .next t → t.range[c] = 0x00)

/-- R184: ENTER_SCAN is refused in `Uninitialized`, sends nothing under Manual, and under AutoSeq completes
or faults at either of its two frames. What DEV does and answers is the model's choice (DEVREF, log 15). -/
def Obligations.EnterScanRunsItsStepList : Prop :=
  ∀ s : State, s.port = .P → s.ft.state = .idle → s.bufLock = .free → s.NoRst →
    (s.drvState = .uninitialized →
      ∃ t, exec .enterScan s = .next t ∧
        t.ownerView = s.ownerView.answered 0x50000000 0 (Response.error .notInitialized) []) ∧
    (s.drvState ≠ .uninitialized → s.straps.strategy = .manual →
      ∃ t, exec .enterScan s = .next t ∧
        t.ownerView = { s.ownerView.answered 0x50000000 3 Response.plain [] with drvState := .ready }) ∧
    (∀ rx₁ rx₂ d b, s.drvState ≠ .uninitialized → s.straps.strategy = .autoSeq →
      exchange s.cfg s.dev (enterScanFrames s.cfg) s.busIn = some ([rx₁, rx₂], d, b) →
      ∃ t, exec .enterScan s = .next t ∧
        t.ownerView =
          { s.ownerView.answered 0x50000000 3 Response.plain
              [.frame .w24 (regFrame s.cfg.regAutoSeqEn s.cfg.seqEnAll) (.rxOk (Width.w24.trunc rx₁)),
                .frame .w32 (cmdFrame s.cfg.opcAutoRst) (.rxOk rx₂)] with
            drvState := .ready, autoArmed := true, dev := d, busIn := b,
            ft := Ft.afterFrame .transact .w32 (cmdFrame s.cfg.opcAutoRst) rx₂ 32 }) ∧
    (∀ a b, s.drvState ≠ .uninitialized → s.straps.strategy = .autoSeq → s.busIn = a :: b → a.isFault = true →
      ∃ t, exec .enterScan s = .next t ∧
        t.ownerView =
          { s.ownerView.answered 0x50000000 1 (Response.error .busFault)
              [a.faultEvent .w24 (regFrame s.cfg.regAutoSeqEn s.cfg.seqEnAll)] with
            drvState := .uninitialized, autoArmed := false, busIn := b,
            dev := a.devAfterFault s.cfg s.dev .w24 (regFrame s.cfg.regAutoSeqEn s.cfg.seqEnAll),
            ft := a.ftAfterFault s.ft .writeReg .w24 (regFrame s.cfg.regAutoSeqEn s.cfg.seqEnAll) }) ∧
    (∀ a₁ rx₁ a₂ b, s.drvState ≠ .uninitialized → s.straps.strategy = .autoSeq →
      s.busIn = a₁ :: a₂ :: b → a₁.word s.dev .w24 = some rx₁ → a₂.isFault = true →
      ∃ t, exec .enterScan s = .next t ∧
        t.ownerView =
          { s.ownerView.answered 0x50000000 2 (Response.error .busFault)
              [.frame .w24 (regFrame s.cfg.regAutoSeqEn s.cfg.seqEnAll) (.rxOk (Width.w24.trunc rx₁)),
                a₂.faultEvent .w32 (cmdFrame s.cfg.opcAutoRst)] with
            drvState := .uninitialized, autoArmed := false, busIn := b,
            dev := a₂.devAfterFault s.cfg
              (s.dev.receive s.cfg .w24 (regFrame s.cfg.regAutoSeqEn s.cfg.seqEnAll)) .w32
              (cmdFrame s.cfg.opcAutoRst),
            ft := a₂.ftAfterFault
              (Ft.afterFrame .writeReg .w24 (regFrame s.cfg.regAutoSeqEn s.cfg.seqEnAll) rx₁ 24)
              .transact .w32 (cmdFrame s.cfg.opcAutoRst) })

/-! ## Read operations (42_driver_scan.md) -/

/-- R305, R302, R310, R311: a read is refused outside `Ready` before its operand is looked at; READ_CH of a
channel above 7 is refused in `Ready`. Nothing is sent. -/
def Obligations.ReadsAreRefusedInOrder : Prop :=
  ∀ (s : State) (ch : Byte), s.port = .P → s.ft.state = .idle → s.bufLock = .free → s.NoRst →
    (s.drvState ≠ .ready →
      (∃ t, exec (.readCh ch) s = .next t ∧
        t.ownerView = s.ownerView.answered (0x60#8 ++ ch ++ 0x0000#16) 0 (Response.error .notInitialized) []) ∧
      (∃ t, exec .scanAll s = .next t ∧
        t.ownerView = s.ownerView.answered 0x70000000 0 (Response.error .notInitialized) [])) ∧
    (s.drvState = .ready → 7 < ch.toNat →
      ∃ t, exec (.readCh ch) s = .next t ∧
        t.ownerView = s.ownerView.answered (0x60#8 ++ ch ++ 0x0000#16) 0 (Response.error .invalidArgument) [])

/-- R200, R201, R203: a READ_CH whose two frames complete returns and commits the second frame's result
word, and touches no other channel. What DEV does and answers is the model's choice (DEVREF, log 15); the
tags of missing lanes are too (log 6). -/
def Obligations.ReadChannelReturnsTheSecondResult : Prop :=
  ∀ (s : State) (ch : Byte) (c : Chan) (rx₁ rx₂ : BitVec 32) (d : Dev) (b : List BusAnswer),
    s.port = .P → s.ft.state = .idle → s.bufLock = .free → s.NoRst → s.drvState = .ready → ch.toNat = c.val →
    exchange s.cfg s.dev (readChFrames s.cfg c) s.busIn = some ([rx₁, rx₂], d, b) →
      ∃ t, exec (.readCh ch) s = .next t ∧
        t.ownerView =
          { s.ownerView.answered (0x60#8 ++ ch ++ 0x0000#16) 3
              ⟨.ok, 0, (rx₂.extractLsb' 0 16).setWidth 128⟩
              [.frame .w32 (cmdFrame s.cfg.opcManCh[c]) (.rxOk rx₁),
                .frame .w32 (cmdFrame s.cfg.opcNoOp) (.rxOk rx₂), .commit t.lanes t.valid] with
            autoArmed := false,
            stage := s.stage.set c (rx₂.extractLsb' 0 16), svalid := setFlag s.svalid c,
            code := s.code.set c (rx₂.extractLsb' 0 16), valid := setFlag s.valid c, epoch := s.epoch + 1,
            dev := d, busIn := b, ft := Ft.afterFrame .transact .w32 (cmdFrame s.cfg.opcNoOp) rx₂ 32 }

/-- R204: a READ_CH whose first or second frame faults makes the channel missing, keeps `Ready`, and answers
`BusFault` with no data. What DEV does and answers is the model's choice (DEVREF, log 15); the tags of
missing lanes are too (log 6). -/
def Obligations.FaultedReadChannelIsMissing : Prop :=
  ∀ (s : State) (ch : Byte) (c : Chan), s.port = .P → s.ft.state = .idle → s.bufLock = .free → s.NoRst →
    s.drvState = .ready → ch.toNat = c.val →
    (∀ a b, s.busIn = a :: b → a.isFault = true →
      ∃ t, exec (.readCh ch) s = .next t ∧
        t.ownerView =
          { s.ownerView.answered (0x60#8 ++ ch ++ 0x0000#16) 4 (Response.error .busFault)
              [a.faultEvent .w32 (cmdFrame s.cfg.opcManCh[c]), .commit t.lanes t.valid] with
            autoArmed := false, svalid := clearFlag s.svalid c, valid := clearFlag s.valid c,
            epoch := s.epoch + 1, busIn := b,
            dev := a.devAfterFault s.cfg s.dev .w32 (cmdFrame s.cfg.opcManCh[c]),
            ft := a.ftAfterFault s.ft .transact .w32 (cmdFrame s.cfg.opcManCh[c]) }) ∧
    (∀ a₁ rx₁ a₂ b, s.busIn = a₁ :: a₂ :: b → a₁.word s.dev .w32 = some rx₁ → a₂.isFault = true →
      ∃ t, exec (.readCh ch) s = .next t ∧
        t.ownerView =
          { s.ownerView.answered (0x60#8 ++ ch ++ 0x0000#16) 4 (Response.error .busFault)
              [.frame .w32 (cmdFrame s.cfg.opcManCh[c]) (.rxOk rx₁),
                a₂.faultEvent .w32 (cmdFrame s.cfg.opcNoOp), .commit t.lanes t.valid] with
            autoArmed := false, svalid := clearFlag s.svalid c, valid := clearFlag s.valid c,
            epoch := s.epoch + 1, busIn := b,
            dev := a₂.devAfterFault s.cfg (s.dev.receive s.cfg .w32 (cmdFrame s.cfg.opcManCh[c])) .w32
              (cmdFrame s.cfg.opcNoOp),
            ft := a₂.ftAfterFault (Ft.afterFrame .transact .w32 (cmdFrame s.cfg.opcManCh[c]) rx₁ 32)
              .transact .w32 (cmdFrame s.cfg.opcNoOp) })

/-- R208, R211: a manual pass sends nine frames, discards the first response, and puts the j-th of the eight
others in lane j; `auto_armed` stays as it was. What DEV does and answers is the model's choice (DEVREF, log
15); the tags of missing lanes are too (log 6). -/
def Obligations.ManualPassCapturesEightResults : Prop :=
  ∀ (s : State) (rs : List (BitVec 32)) (d : Dev) (b : List BusAnswer),
    s.port = .P → s.ft.state = .idle → s.bufLock = .free → s.NoRst → s.drvState = .ready →
    s.straps.strategy = .manual →
    exchange s.cfg s.dev (manualFrames s.cfg) s.busIn = some (rs, d, b) →
      ∃ t, exec .scanAll s = .next t ∧
        t.ownerView =
          { s.ownerView.answered 0x70000000 10 ⟨.ok, 0xFF, packLanes (resultLanes (rs.drop 1))⟩
              (frameEvents (manualFrames s.cfg) rs ++ [.commit (resultLanes (rs.drop 1)) 0xFF]) with
            stage := resultLanes (rs.drop 1), svalid := 0xFF, code := resultLanes (rs.drop 1), valid := 0xFF,
            epoch := s.epoch + 1, dev := d, busIn := b,
            ft := Ft.afterFrame .transact .w32 (cmdFrame s.cfg.opcNoOp) (rs.getD 8 0) 32 }

/-- R213, R214, R215: an auto-sequence pass sends eight frames where it starts armed, and one priming frame
before them where it does not; it leaves the sequence armed. What DEV does and answers is the model's choice
(DEVREF, log 15); the tags of missing lanes are too (log 6). -/
def Obligations.AutoPassCapturesEightResults : Prop :=
  ∀ (s : State) (rs : List (BitVec 32)) (d : Dev) (b : List BusAnswer),
    s.port = .P → s.ft.state = .idle → s.bufLock = .free → s.NoRst → s.drvState = .ready →
    s.straps.strategy = .autoSeq →
    (s.autoArmed = true → exchange s.cfg s.dev (autoFrames s.cfg) s.busIn = some (rs, d, b) →
      ∃ t, exec .scanAll s = .next t ∧
        t.ownerView =
          { s.ownerView.answered 0x70000000 10 ⟨.ok, 0xFF, packLanes (resultLanes rs)⟩
              (frameEvents (autoFrames s.cfg) rs ++ [.commit (resultLanes rs) 0xFF]) with
            stage := resultLanes rs, svalid := 0xFF, code := resultLanes rs, valid := 0xFF, autoArmed := true,
            epoch := s.epoch + 1, dev := d, busIn := b,
            ft := Ft.afterFrame .transact .w32 (cmdFrame s.cfg.opcAutoRst) (rs.getD 7 0) 32 }) ∧
    (s.autoArmed = false →
      exchange s.cfg s.dev (cmdReq s.cfg.opcAutoRst :: autoFrames s.cfg) s.busIn = some (rs, d, b) →
      ∃ t, exec .scanAll s = .next t ∧
        t.ownerView =
          { s.ownerView.answered 0x70000000 10 ⟨.ok, 0xFF, packLanes (resultLanes (rs.drop 1))⟩
              (frameEvents (cmdReq s.cfg.opcAutoRst :: autoFrames s.cfg) rs
                ++ [.commit (resultLanes (rs.drop 1)) 0xFF]) with
            stage := resultLanes (rs.drop 1), svalid := 0xFF, code := resultLanes (rs.drop 1), valid := 0xFF,
            autoArmed := true, epoch := s.epoch + 1, dev := d, busIn := b,
            ft := Ft.afterFrame .transact .w32 (cmdFrame s.cfg.opcAutoRst) (rs.getD 8 0) 32 })

/-- R216: a pass whose frame `m` faults, under either strategy, stops there: the results captured before it
are committed and returned with their mask, the other channels are missing, `auto_armed` is cleared and
`Ready` is kept. What DEV does and answers is the model's choice (DEVREF, log 15); the tags of missing lanes
are too (log 6). -/
def Obligations.FaultedPassCommitsWhatItCaptured : Prop :=
  ∀ (s : State) (m : Nat) (rs : List (BitVec 32)) (d : Dev) (a : BusAnswer) (b : List BusAnswer) (f : FrameReq),
    s.port = .P → s.ft.state = .idle → s.bufLock = .free → s.NoRst → s.drvState = .ready →
    s.passFrames[m]? = some f →
    exchange s.cfg s.dev (s.passFrames.take m) s.busIn = some (rs, d, a :: b) → a.isFault = true →
      ∃ t, exec .scanAll s = .next t ∧ t.ft.state = .idle ∧
        t.ownerView =
          { (s.passed (rs.drop s.primingFrames)).ownerView.answered 0x70000000 11
              ⟨.busFault, firstFlags (rs.drop s.primingFrames).length,
                packLanes (overlay (Vector.replicate 8 0) (rs.drop s.primingFrames))⟩
              (frameEvents (s.passFrames.take m) rs ++ [a.faultEvent f.1 f.2, .commit t.lanes t.valid]) with
            autoArmed := false, dev := a.devAfterFault s.cfg d f.1 f.2, busIn := b, ft := t.ft }

/-- R220: GET_CODES answers the whole buffer in one atomic read, on either port and in every state; a lane
whose mask bit is 1 holds the channel's code. Nothing else is read or written (R221). What a missing lane
reads as is the model's choice: a free value (log 6). -/
def Obligations.GetCodesAnswersTheBuffer : Prop :=
  (∀ s : State, s.port = .P → s.ft.state = .idle → s.bufLock = .free → s.NoRst →
    ∃ t, exec .getCodes s = .next t ∧
      t.ownerView =
        s.ownerView.answered 0x80000000 0 ⟨.ok, s.valid, packLanes s.lanes⟩ [.snapshot .P s.lanes s.valid]) ∧
  (∀ s : State, s.port = .C →
    exec .getCodes s = .next { s with
      bufLock := .free, cResp := some ⟨.ok, s.valid, packLanes s.lanes⟩,
      hist := s.hist ++ [.op .C 0x80000000, .snapshot .C s.lanes s.valid,
        .resp .C ⟨.ok, s.valid, packLanes s.lanes⟩] }) ∧
  (∀ (s : State) (c : Chan), s.valid.getLsbD c.val = true → laneOf (packLanes s.lanes) c = s.code[c])

/-! ## The converter (43_converter.md) -/

/-- R231, R232, R238: TO_VOLTAGE on either port and in every state: the number `n` the code stands for,
the voltage `V` as a rational, and the response `vq`, with `V = vq / 51200` exactly. -/
def Obligations.ToVoltageAnswersTheVoltage : Prop :=
  ∀ (s : State) (code : Code) (rg : Byte) (r : Nat) (n vq : Int) (V fs : Rat),
    r = (if rg.toNat ≤ 6 then rg.toNat else 0) →
    n = (if r ≤ 4 then
          if s.straps.coding = .twosComplement then code.toInt else (code.toNat : Int) - 32768
        else (code.toNat : Int)) →
    some fs = [1024 / 100, 512 / 100, 256 / 100, 128 / 100, 64 / 100, 1024 / 100, 512 / 100][r]? →
    V = (n : Rat) / (if r ≤ 4 then 32768 else 65536) * fs →
    vq = n * 2 ^ [4, 3, 2, 1, 0, 3, 2].getD r 0 →
      V = (vq : Rat) / 51200 ∧
      (s.port = .P → s.ft.state = .idle → s.bufLock = .free → s.NoRst →
        ∃ t, exec (.toVoltage code rg) s = .next t ∧
          t.ownerView =
            s.ownerView.answered (0x90#8 ++ rg ++ code) 0 ⟨.ok, 0, (BitVec.ofInt 32 vq).setWidth 128⟩ []) ∧
      (s.port = .C →
        exec (.toVoltage code rg) s = .next { s with
          cResp := some ⟨.ok, 0, (BitVec.ofInt 32 vq).setWidth 128⟩,
          hist := s.hist ++ [.op .C (0x90#8 ++ rg ++ code),
            .resp .C ⟨.ok, 0, (BitVec.ofInt 32 vq).setWidth 128⟩] })

/-- R235, R236: the fixed-point result is the exact voltage, and the 32-bit word stands for it. -/
def Obligations.FixedPointVoltageIsExact : Prop :=
  ∀ (k : BipolarCoding) (code : Code) (rg : Byte),
    voltage k code rg = (voltageQ k code rg : Rat) / 51200 ∧
      (BitVec.ofInt 32 (voltageQ k code rg)).toInt = voltageQ k code rg

/-- R233: every range code from 0x07 to 0xFF converts exactly as 0x00 does, and is not refused. -/
def Obligations.OutOfRangeCodeClamps : Prop :=
  ∀ (s : State) (code : Code) (rg : Byte), 7 ≤ rg.toNat → s.ft.state = .idle → s.NoRst →
    (∀ k, voltageQ k code rg = voltageQ k code 0x00 ∧ voltage k code rg = voltage k code 0x00) ∧
    ∃ t u, exec (.toVoltage code rg) s = .next t ∧ exec (.toVoltage code 0x00) s = .next u ∧
      (s.port = .P → t.pResp = u.pResp ∧ t.curStatus = .ok) ∧ (s.port = .C → t.cResp = u.cResp)

/-- R237: the range of the results; 21 bits hold them; the extremes; code 0 is 0 V under every range (with
BIPOLAR_CODING at its normative default, for the last two). -/
def Obligations.VoltageStaysInRange : Prop :=
  (∀ (k : BipolarCoding) (code : Code) (rg : Byte),
    (cvtRange rg ≤ 4 → -524288 ≤ voltageQ k code rg ∧ voltageQ k code rg ≤ 524272) ∧
    (4 < cvtRange rg → 0 ≤ voltageQ k code rg ∧ voltageQ k code rg ≤ 524280) ∧
    BitVec.ofInt 32 (voltageQ k code rg) = (BitVec.ofInt 21 (voltageQ k code rg)).signExtend 32) ∧
  (∀ (code : Code) (rg : Byte),
    -(1024 / 100) ≤ voltage .twosComplement code rg ∧
      voltage .twosComplement code rg ≤ 1024 / 100 * 65535 / 65536) ∧
  voltage .twosComplement 0x8000 0 = -(1024 / 100) ∧
  voltage .twosComplement 0xFFFF 5 = 1024 / 100 * 65535 / 65536 ∧
  (∀ rg : Byte, voltage .twosComplement 0x0000 rg = 0)

/-- R239: the laws of the converter. -/
def Obligations.ConverterLaws : Prop :=
  let V := fun (code : Code) (rg : Byte) => voltage .twosComplement code rg
  (∀ rg : Byte, rg.toNat ≤ 4 →
    V 0x8000 rg = -fullScale rg.toNat ∧
    V 0x7FFF rg = fullScale rg.toNat - fullScale rg.toNat / 32768 ∧
    ∀ x y : Code, x.toInt < y.toInt → V x rg < V y rg) ∧
  (∀ rg : Byte, rg.toNat = 5 ∨ rg.toNat = 6 →
    V 0x0000 rg = 0 ∧
    V 0xFFFF rg = fullScale rg.toNat * 65535 / 65536 ∧
    ∀ x y : Code, x.toNat < y.toNat → V x rg < V y rg) ∧
  (∀ x : Code, V x 0 = 2 * V x 1 ∧ V x 0 = 4 * V x 2 ∧ V x 0 = 8 * V x 3 ∧ V x 0 = 16 * V x 4 ∧ V x 5 = 2 * V x 6) ∧
  (∀ (x : Code) (rg : Byte), 6 < rg.toNat → V x rg = V x 0)

/-- R238: the two codings of bipolar codes differ by the top bit and by nothing else; unipolar ranges
ignore the strap. -/
def Obligations.OffsetBinaryFlipsTheTopBit : Prop :=
  ∀ (code : Code) (rg : Byte),
    (cvtRange rg ≤ 4 →
      voltageQ .offsetBinary code rg = voltageQ .twosComplement (code ^^^ 0x8000) rg ∧
      voltage .offsetBinary 0x8000 rg = 0) ∧
    (4 < cvtRange rg → voltageQ .offsetBinary code rg = voltageQ .twosComplement code rg)

/-! ## The transport (40_frame_transport.md) -/

/-- R131, R133, R136: TRANSACT of each legal width, completed, refused, or faulted. What DEV does and
answers is the model's choice (DEVREF, log 15); whether DEV acted on a faulted frame is an input (log 18).
-/
def Obligations.TransactExchangesOneFrame : Prop :=
  ∀ (s : State) (wsel : BitVec 2) (payload : BitVec 32) (w : Width) (a : BusAnswer) (b : List BusAnswer),
    (wsel = 0 ∧ w = .w16) ∨ (wsel = 1 ∧ w = .w24) ∨ (wsel = 2 ∧ w = .w32) → s.busIn = a :: b →
    (∀ rx, a.word s.dev w = some rx →
      exec (.transact wsel payload) s = .next { s with
        busIn := b, ft := Ft.afterFrame .transact w payload rx w.bits,
        dev := s.dev.receive s.cfg w (w.trunc payload),
        hist := s.hist ++ [.frame w (w.trunc payload) (.rxOk (w.trunc rx))],
        ftReply := some ⟨.ok, w.trunc rx⟩, bench := false }) ∧
    (a = .notReady →
      exec (.transact wsel payload) s = .next { s with
        busIn := b, hist := s.hist ++ [.refused w (w.trunc payload)],
        ftReply := some ⟨.busFault, 0⟩, bench := false }) ∧
    (∀ rx bits acts, a = .fault rx bits acts →
      exec (.transact wsel payload) s = .next { s with
        busIn := b, ft := Ft.afterFrame .transact w payload rx (min bits (w.bits - 1) + 1),
        dev := if acts then s.dev.receive s.cfg w (w.trunc payload) else s.dev,
        hist := s.hist ++ [.frame w (w.trunc payload) .fault],
        ftReply := some ⟨.busFault, 0⟩, bench := false })

/-- R107, R132: an illegal request is answered `(InvalidArgument, 0)` and touches nothing. -/
def Obligations.IllegalRequestsTouchNothing : Prop :=
  (∀ (s : State) (rq : RequestWord) (l : List Input), s.cfg.wf = true → s.busy = false →
    s.inbox = .request rq :: l →
    (rq.extractLsb' 34 1 = (0 : BitVec 1) ∧ rq.extractLsb' 32 2 = (3 : BitVec 2)) ∨
      (rq.extractLsb' 34 1 = (1 : BitVec 1) ∧
        (rq.extractLsb' 32 2 ≠ (1 : BitVec 2) ∨ rq.extractLsb' 15 17 ≠ (0 : BitVec 17))) →
    step s = .next { s.clearOutputs with inbox := l, ftReply := some ⟨.invalidArgument, 0⟩ }) ∧
  (∀ (s : State) (payload : BitVec 32),
    exec (.transact 3 payload) s = .next { s with ftReply := some ⟨.invalidArgument, 0⟩ })

/-- R138: WRITE_REG sends one register frame, for every address and every value, and drops what it receives.
What DEV does and answers is the model's choice (DEVREF, log 15). -/
def Obligations.WriteRegisterSendsOneFrame : Prop :=
  ∀ (s : State) (a : BitVec 7) (v : Byte) (x : BusAnswer) (b : List BusAnswer), s.busIn = x :: b →
    (∀ rx, x.word s.dev .w24 = some rx →
      exec (.writeReg a v) s = .next { s with
        busIn := b, ft := Ft.afterFrame .writeReg .w24 (regFrame a v) rx 24,
        dev := s.dev.receive s.cfg .w24 (regFrame a v),
        hist := s.hist ++ [.frame .w24 (regFrame a v) (.rxOk (Width.w24.trunc rx))],
        ftReply := some ⟨.ok, 0⟩, bench := false }) ∧
    (x.isFault = true →
      exec (.writeReg a v) s = .next (s.wireFaulted .writeReg .w24 (regFrame a v) x b))

/-- R147: taken bit by bit, with any byte gaps SwGpioCs allows, a frame ends where the atomic transaction
ends: a frame of a bench (TRANSACT, WRITE_REG, a wire frame), and any frame of any operation of SEQ, after
which the operation goes on. How BUS supplies the bits is the model's choice (log 7); so is when DEV receives
the frame (log 31). -/
def Obligations.BitEngineRefinesTheTransaction : Prop :=
  ∀ (k : CsImpl) (w : Width) (rx : BitVec 32) (gaps : Nat → Nat), k = .swGpioCs ∨ (∀ j, gaps j = 0) →
    EngineMatches k w (.answer rx) (wireSamples w rx gaps)

/-- R136, R142, R145, R147: the same where shift step `n` sees `bus_err`, after any byte gaps, or where a gap
before bit `n` sees it: the engine stops clocking there. How BUS supplies the bits is the model's choice
(log 7); so is when DEV receives the frame (log 31). -/
def Obligations.BitEngineRefinesTheFault : Prop :=
  ∀ (k : CsImpl) (w : Width) (rx : BitVec 32) (gaps : Nat → Nat) (n : Nat) (acts : Bool), n < w.bits →
    (k = .swGpioCs ∨ (∀ j, gaps j = 0) →
      EngineMatches k w (.fault rx n acts) (faultSamples w rx gaps n acts)) ∧
    (0 < n → n % 8 = 0 →
      EngineMatches .swGpioCs w (.fault rx (n - 1) acts) (gapFaultSamples w rx gaps n acts))

/-- R137, R357: where BUS never finishes a frame, the operation and port P hang: as the owner sees it,
nothing changes from the second step on, whatever words wait on port P; and port C keeps working: every word
due in those steps is accepted and answered, in order. What a missing lane reads as is the model's choice: a
free value (log 6); so is when port C is served inside a frame (log 11). That an exhausted `lineIn` means a
silent BUS is the model's choice (log 7). -/
def Obligations.SilentBusHangsPortP : Prop :=
  ∀ (s : State) (n : Nat), s.cfg.wf = true → s.busy = true → s.ft.state = .shift → s.ft.err = false →
    s.bufLock = .free → s.NoRst →
    s.ft.bitcnt < s.ft.w.bits → s.lineIn = [] → (∀ x ∈ s.inbox, ∃ cw, x = .portP cw) →
      ∃ t, Sys2Proof.core.run (n + 1) s = .next t ∧ t.ownerView = s.clearOutputs.ownerView ∧ t.pReady = false ∧
        t.slots = s.slots.drop (n + 1) ∧
        t.hist = s.hist ++ (s.slots.take (n + 1)).flatMap fun x => x.words.flatMap s.answersC

/-! ## Wire frames (44_adc_wire_commands.md) -/

/-- R131, R252 to R259: every wire frame of the table, completed or faulted: the frame goes out as encoded,
DEV receives it, the received word is the reply. Nothing of SEQ changes (R130). What DEV does and answers is
the model's choice (DEVREF, log 15); so is the presenting of a bare frame (log 10). -/
def Obligations.WireFramesGoOutAsEncoded : Prop :=
  ∀ (s : State) (i : Instr) (w : Width) (tx : TxWord) (a : BusAnswer) (b : List BusAnswer),
    encode s.cfg i = .frame w tx → s.busIn = a :: b →
    (∀ rx, a.word s.dev w = some rx →
      exec i s = .next (s.wireDone .transact w tx rx b (s.dev.receive s.cfg w tx))) ∧
    (a.isFault = true → exec i s = .next (s.wireFaulted .transact w tx a b))

/-- R252: W.NO_OP converts the same channel again after a select, the next channel in sequence in
auto-sequence mode (wrapping to the lowest), and nothing before either. What DEV does and answers is the
model's choice (DEVREF, log 15). R252 leaves a W.NO_OP before any select open. -/
def Obligations.NoOpConvertsTheNextChannel : Prop :=
  ∀ (s : State) (a : BusAnswer) (b : List BusAnswer) (rx : BitVec 32),
    s.cfg.addressesOk = true → s.busIn = a :: b → a.word s.dev .w32 = some rx →
    ∃ d, exec .wNoOp s = .next (s.wireDone .transact .w32 (cmdFrame s.cfg.opcNoOp) rx b d) ∧
      d.pr = s.dev.pr ∧ d.frames = s.dev.frames + 1 ∧ d.sampler = s.dev.sampler ∧
      (s.dev.mode = .idle → d.mode = .idle ∧ d.pending = none) ∧
      (∀ n, s.dev.mode = .man n → d.mode = .man n ∧ d.pending = some (s.dev.sample n)) ∧
      (∀ n m, s.dev.mode = .auto n → s.dev.inSequence s.cfg m = true →
        (n < m ∧ ∀ j, n < j → j < m → s.dev.inSequence s.cfg j = false) ∨
          ((∀ j, n < j → s.dev.inSequence s.cfg j = false) ∧ ∀ j, j < m → s.dev.inSequence s.cfg j = false) →
        d.mode = .auto m ∧ d.pending = some (s.dev.sample m))

/-- R253: W.RST returns DEV's registers to their power-up values, leaves its mode and empties its pipeline.
What DEV does and answers is the model's choice (DEVREF, log 15), REG_AUTO_SEQ_EN = 0xFF at power-up
included. -/
def Obligations.RstReturnsTheRegisters : Prop :=
  ∀ (s : State) (a : BusAnswer) (b : List BusAnswer) (rx : BitVec 32),
    s.cfg.addressesOk = true → s.busIn = a :: b → a.word s.dev .w32 = some rx →
    ∃ d, exec .wRst s = .next (s.wireDone .transact .w32 (cmdFrame s.cfg.opcRst) rx b d) ∧
      (∀ n, d.range s.cfg n = 0x00) ∧ d.reg s.cfg s.cfg.regChPwrDn = 0x00 ∧
      d.reg s.cfg s.cfg.regAutoSeqEn = 0xFF ∧ Memory.wf s.cfg d.pr = true ∧
      d.mode = .idle ∧ d.pending = none ∧ d.frames = s.dev.frames + 1

/-- R254, R262: W.AUTO_RST enters auto-sequence mode at the lowest channel in sequence and converts it; with
none in sequence DEV is left idle. What DEV does and answers is the model's choice (DEVREF, log 15). -/
def Obligations.AutoRstConvertsTheLowestChannel : Prop :=
  ∀ (s : State) (a : BusAnswer) (b : List BusAnswer) (rx : BitVec 32),
    s.cfg.addressesOk = true → s.busIn = a :: b → a.word s.dev .w32 = some rx →
    ∃ d, exec .wAutoRst s = .next (s.wireDone .transact .w32 (cmdFrame s.cfg.opcAutoRst) rx b d) ∧
      d.pr = s.dev.pr ∧ d.frames = s.dev.frames + 1 ∧
      (∀ n, s.dev.inSequence s.cfg n = true → (∀ j, j < n → s.dev.inSequence s.cfg j = false) →
        d.mode = .auto n ∧ d.pending = some (s.dev.sample n)) ∧
      ((∀ n, s.dev.inSequence s.cfg n = false) → d.mode = .idle ∧ d.pending = none)

/-- R255: W.MAN_CHn selects channel n and converts it, whatever mode DEV was in. What DEV does and answers
is the model's choice (DEVREF, log 15); the conversion itself is a free value (log 17). -/
def Obligations.ManChConvertsItsChannel : Prop :=
  ∀ (s : State) (n : Chan) (a : BusAnswer) (b : List BusAnswer) (rx : BitVec 32),
    s.cfg.addressesOk = true → s.busIn = a :: b → a.word s.dev .w32 = some rx →
    ∃ d, exec (Instr.wManCh n) s = .next (s.wireDone .transact .w32 (cmdFrame s.cfg.opcManCh[n]) rx b d) ∧
      d.pr = s.dev.pr ∧ d.frames = s.dev.frames + 1 ∧
      d.mode = .man n ∧ d.pending = some (s.dev.sample n)

/-- R256: W.WR stores `v` in program register `a` of DEV and leaves every other register as it was. What DEV
does and answers is the model's choice (DEVREF, log 15); every address is taken to exist (log 27). -/
def Obligations.WrStoresOneRegister : Prop :=
  ∀ (s : State) (r : BitVec 7) (v : Byte) (a : BusAnswer) (b : List BusAnswer) (rx : BitVec 32),
    Memory.wf s.cfg s.dev.pr = true → s.busIn = a :: b → a.word s.dev .w24 = some rx →
    ∃ d, exec (.wWr r v) s = .next (s.wireDone .transact .w24 (regFrame r v) rx b d) ∧
      d.reg s.cfg r = v ∧ (∀ r', r' ≠ r → d.reg s.cfg r' = s.dev.reg s.cfg r') ∧
      Memory.wf s.cfg d.pr = true ∧ d.mode = s.dev.mode ∧ d.frames = s.dev.frames + 1

/-- R257, R258, R259: the frames of the three kinds of register the block writes. What DEV does and answers
is the model's choice (DEVREF, log 15), with its one-bit-per-channel registers. -/
def Obligations.RegisterRowsWriteTheirRegister : Prop :=
  ∀ (s : State) (a : BusAnswer) (b : List BusAnswer) (rx : BitVec 32),
    s.cfg.addressesOk = true → Memory.wf s.cfg s.dev.pr = true → s.busIn = a :: b →
    a.word s.dev .w24 = some rx →
    (∃ d, exec .wWrChPwrDn s = .next (s.wireDone .transact .w24 (regFrame s.cfg.regChPwrDn 0x00) rx b d) ∧
      d.reg s.cfg s.cfg.regChPwrDn = 0x00 ∧ (∀ n, d.range s.cfg n = s.dev.range s.cfg n) ∧
      d.reg s.cfg s.cfg.regAutoSeqEn = s.dev.reg s.cfg s.cfg.regAutoSeqEn) ∧
    (∃ d, exec .wWrAutoSeqEn s =
        .next (s.wireDone .transact .w24 (regFrame s.cfg.regAutoSeqEn s.cfg.seqEnAll) rx b d) ∧
      d.reg s.cfg s.cfg.regAutoSeqEn = s.cfg.seqEnAll ∧ (∀ n, d.range s.cfg n = s.dev.range s.cfg n) ∧
      d.reg s.cfg s.cfg.regChPwrDn = s.dev.reg s.cfg s.cfg.regChPwrDn ∧
      (s.cfg.seqEnAll = 0xFF → s.dev.reg s.cfg s.cfg.regChPwrDn = 0x00 → ∀ n, d.inSequence s.cfg n = true)) ∧
    (∀ (n : Chan) (v : Byte),
      ∃ d, exec (Instr.wWrRange n v) s =
          .next (s.wireDone .transact .w24 (regFrame (s.cfg.rangeReg n) v) rx b d) ∧
        d.range s.cfg n = v ∧ (∀ m, m ≠ n → d.range s.cfg m = s.dev.range s.cfg m) ∧
        d.reg s.cfg s.cfg.regChPwrDn = s.dev.reg s.cfg s.cfg.regChPwrDn ∧
        d.reg s.cfg s.cfg.regAutoSeqEn = s.dev.reg s.cfg s.cfg.regAutoSeqEn ∧
        ∀ m, d.inSequence s.cfg m = s.dev.inSequence s.cfg m)

/-- R251: against a DEV that keeps its contract, the low half of a command frame's reply is the conversion
that was pending when it began, whatever the command; and that is the conversion the command frame before it
started (W.MAN_CHn, W.AUTO_RST or W.NO_OP, or any other that starts one). What DEV does and answers is the
model's choice (DEVREF, log 15); the conversion itself is a free value (log 17). -/
def Obligations.ResponseBelongsToThePreviousCommand : Prop :=
  (∀ (s : State) (i : Instr) (tx : TxWord) (noise : BitVec 32) (b : List BusAnswer) (code : Code),
    s.busIn = .device noise :: b → encode s.cfg i = .frame .w32 tx → s.dev.pending = some code →
      ∃ u y, exec i s = .next u ∧ u.ftReply = some ⟨.ok, y⟩ ∧ y.extractLsb' 0 16 = code) ∧
  (∀ (s t : State) (j i : Instr) (txj txi : TxWord) (a : BusAnswer) (noise rx : BitVec 32) (b : List BusAnswer)
    (n : Chan), s.cfg.addressesOk = true → s.busIn = a :: .device noise :: b → a.word s.dev .w32 = some rx →
    encode s.cfg j = .frame .w32 txj → encode s.cfg i = .frame .w32 txi → exec j s = .next t →
    t.dev.mode = .man n ∨ t.dev.mode = .auto n →
      ∃ u y, exec i t = .next u ∧ u.ftReply = some ⟨.ok, y⟩ ∧ y.extractLsb' 0 16 = s.dev.sample n)

/-- R260, R263: against DEVREF, with no fault, a manual pass leaves in `CODE[c]` the conversion of channel c
that the pass's own frame c started. DEV as DEVREF is the model's choice (log 15); the conversion itself is
a free value (log 17). -/
def Obligations.ManualPassReadsItsOwnConversions : Prop :=
  ∀ (s : State) (noises : List (BitVec 32)) (b : List BusAnswer),
    s.port = .P → s.ft.state = .idle → s.bufLock = .free → s.NoRst → s.drvState = .ready → s.straps.strategy = .manual →
    s.cfg.addressesOk = true → noises.length = 9 → s.busIn = noises.map .device ++ b →
      ∃ t, exec .scanAll s = .next t ∧ t.busIn = b ∧ t.valid = 0xFF ∧
        ∀ c : Chan, t.code[c] = { s.dev with frames := s.dev.frames + c.val }.sample c

/-- R260, R263, R353: the same for auto-sequence passes, all eight channels in sequence: one that primes
itself, and one that starts armed, whose channel 0 was converted by the frame before the pass. DEV as DEVREF
is the model's choice (log 15); the conversion itself is a free value (log 17). -/
def Obligations.AutoPassReadsTheSequence : Prop :=
  ∀ (s : State) (noises : List (BitVec 32)) (b : List BusAnswer),
    s.port = .P → s.ft.state = .idle → s.bufLock = .free → s.NoRst → s.drvState = .ready → s.straps.strategy = .autoSeq →
    s.cfg.addressesOk = true → (∀ n, s.dev.inSequence s.cfg n = true) → s.busIn = noises.map .device ++ b →
    (s.autoArmed = false → noises.length = 9 →
      ∃ t, exec .scanAll s = .next t ∧ t.busIn = b ∧ t.valid = 0xFF ∧
        ∀ c : Chan, t.code[c] = { s.dev with frames := s.dev.frames + c.val }.sample c) ∧
    (∀ code, s.autoArmed = true → noises.length = 8 → s.dev.mode = .auto 0 → s.dev.pending = some code →
      ∃ t, exec .scanAll s = .next t ∧ t.busIn = b ∧ t.valid = 0xFF ∧ t.code[(0 : Chan)] = code ∧
        ∀ c : Chan, 0 < c.val → t.code[c] = { s.dev with frames := s.dev.frames + (c.val - 1) }.sample c)

/-! ## The owner (45_sampling_scheduler.md, 60_exceptions.md, 70_reset_and_hazards.md) -/

/-- R322: whatever a step does, `now` never decreases, and a `sleepMicros(n)` ends at least n microseconds
after its call. Where TMR's readings come from is the model's choice (log 21). -/
def Obligations.TimeNeverGoesBack : Prop :=
  (∀ s t : State, step s = .next t → s.now ≤ t.now) ∧
  (∀ (s : State) (n : Nat) (wake : Time) (l : List Input), s.cfg.wf = true → s.busy = false →
    s.inbox = .sleepMicros n wake :: l →
      ∃ t, step s = .next { s.clearOutputs with inbox := l, now := t } ∧ s.now + n ≤ t ∧ wake ≤ t)

/-- R281: SCHED starts only where the block is `Ready`, its start sets the first deadline to `now` and the
count of misses to 0, and no iteration is made before it. That SCHED then lets its moves pass is the model's
choice (log 21); so is that a second start does what the first does (log 37). -/
def Obligations.NoIterationBeforeTheStart : Prop :=
  ∀ (s : State) (l : List Input), s.cfg.wf = true → s.busy = false →
    (∀ now, s.inbox = .schedStart now :: l →
      (s.drvState = .ready → step s = .next { s.clearOutputs with
        inbox := l, now := max s.now now,
        sched := { s.sched with started := true, deadline := max s.now now, missed := 0 } }) ∧
      (s.drvState ≠ .ready → step s = .next { s.clearOutputs with inbox := l })) ∧
    (s.sched.started = false →
      (∃ scan8 now wake, s.inbox = .iterate scan8 now wake :: l) ∨ s.inbox = .report :: l ∨
        (∃ now wake, s.inbox = .finish now wake :: l) →
      step s = .next { s.clearOutputs with inbox := l })

/-- R287: iterations of SCHED, by SCAN_ALL or by SCAN8 and whatever their scans answer, that all reach step 3
before their deadline leave `deadline = start + k × period` exactly, and report no missed deadline. How TMR's
readings reach SCHED is the model's choice (log 21). -/
def Obligations.DeadlinesDoNotDrift : Prop :=
  ∀ (s : State) (its : List (Bool × Time × Time)) (l : List Input),
    s.cfg.wf = true → s.busy = false → s.ft.state = .idle → s.bufLock = .free → s.NoRst →
    s.sched.started = true →
    s.inbox = its.map (fun x => .iterate x.1 x.2.1 x.2.2) ++ l →
    (∀ a ∈ s.busIn, a.isWhole = true) → 16 * its.length ≤ s.busIn.length →
    s.now < s.sched.deadline + s.period →
    (∀ (k : Nat) (h : k < its.length), its[k].2.1 < s.sched.deadline + (k + 1) * s.period ∧
      its[k].2.2 < s.sched.deadline + (k + 2) * s.period) →
      ∃ t, Sys2Proof.core.run (its.map fun x => iterationSteps x.1).sum s = .next t ∧
        t.inbox = l ∧ t.busy = false ∧ t.sched.started = true ∧
        t.sched.deadline = s.sched.deadline + its.length * s.period ∧ t.sched.missed = s.sched.missed ∧
        t.sched.reports.filter SchedReport.isMissed = s.sched.reports.filter SchedReport.isMissed

/-- R284, R285, R288, R289: an iteration that reaches step 3 a time `d` after its deadline, `d` from the
period on, reports one `DeadlineMissed` with overrun `d − period`, 0 included, and restarts from now; one
that reaches it sooner reports nothing and sleeps until its next deadline or later. One `now` reading serves
steps 3 and 5: the model's choice (log 21). -/
def Obligations.OverrunIsReportedOnce : Prop :=
  ∀ (s : State) (d wake : Time) (l : List Input), s.cfg.wf = true → s.busy = false → s.sched.started = true →
    s.inbox = .finish (s.sched.deadline + d) wake :: l → s.now ≤ s.sched.deadline + d →
      ∃ t, step s = .next t ∧ t.inbox = l ∧
        (s.period ≤ d →
          t.now = s.sched.deadline + d ∧
          t.sched = { s.sched with
            deadline := s.sched.deadline + d, missed := s.sched.missed + 1,
            reports := s.sched.reports ++ [.deadlineMissed (d - s.period)] }) ∧
        (d < s.period →
          t.now = max (s.sched.deadline + s.period) wake ∧
          t.sched = { s.sched with deadline := s.sched.deadline + s.period })

/-- R222, R282, R283: an iteration whose scan is refused or faults, at any of its frames, reports that and
goes on: the deadline advances and the next iteration can begin. By SCAN8, each READ_CH that faults is
reported, and loses its channel only. That each of SCAN8's eight responses is looked at and reported is the
model's reading, DEDUCED (log 23): R283 speaks of the scan's response only. How TMR's readings reach SCHED is
the model's choice (log 21). -/
def Obligations.FailedScanIsReportedAndTheLoopGoesOn : Prop :=
  ∀ (s : State) (scan8 : Bool) (now wake : Time) (l : List Input),
    s.cfg.wf = true → s.busy = false → s.ft.state = .idle → s.bufLock = .free → s.NoRst →
    s.sched.started = true → s.inbox = .iterate scan8 now wake :: l →
    s.now < s.sched.deadline + s.period → now < s.sched.deadline + s.period →
      (∀ (st : Status), scan8 = false →
        (s.drvState ≠ .ready ∧ st = .notInitialized) ∨
          (s.drvState = .ready ∧ st = .busFault ∧ ∃ m rs d a b, m < s.passFrames.length ∧
            exchange s.cfg s.dev (s.passFrames.take m) s.busIn = some (rs, d, a :: b) ∧ a.isFault = true) →
        ∃ t, Sys2Proof.core.run 4 s = .next t ∧ t.inbox = l ∧ t.busy = false ∧ t.drvState = s.drvState ∧
          t.sched = { s.sched with
            deadline := s.sched.deadline + s.period, reports := s.sched.reports ++ [.scanFailed st] }) ∧
      (scan8 = true → s.drvState ≠ .ready →
        ∃ t, Sys2Proof.core.run 18 s = .next t ∧ t.inbox = l ∧ t.busy = false ∧ t.drvState = s.drvState ∧
          t.sched = { s.sched with
            deadline := s.sched.deadline + s.period,
            reports := s.sched.reports ++ List.replicate 8 (.scanFailed .notInitialized) }) ∧
      (scan8 = true → s.drvState = .ready → (∀ a ∈ s.busIn, a.isWhole = true) → 16 ≤ s.busIn.length →
        ∃ t, Sys2Proof.core.run 18 s = .next t ∧ t.inbox = l ∧ t.busy = false ∧ t.drvState = .ready ∧
          t.sched = { s.sched with
            deadline := s.sched.deadline + s.period,
            reports := s.sched.reports ++
              List.replicate (channels.countP fun c => !t.valid.getLsbD c.val) (.scanFailed .busFault) })

/-- R116, R281, R345: SCHED's startup. With no fault INIT brings the block from any state to `Ready` by the
frames of the table, 13 of them under AutoSeq and 11 under Manual, and SCHED starts; where a frame of it
faults it stops there, reports that response, and SCHED does not start. INIT as a script of the owner is the
model's choice (log 23), DEV as DEVREF too (log 15), and that a startup run again restarts the deadline and the
count of misses (log 37). -/
def Obligations.StartupReachesReady : Prop :=
  ∀ (s : State) (ranges : Vector Byte 8) (now : Time) (l : List Input) (rs : List (BitVec 32)) (d : Dev)
    (b : List BusAnswer), s.cfg.wf = true → s.busy = false → s.ft.state = .idle → s.bufLock = .free → s.NoRst →
    s.inbox = .startup ranges now :: l → (∀ c : Chan, ranges[c].toNat ≤ 6) →
    (initFrames s.cfg s.straps.strategy ranges).length = (if s.straps.strategy = .autoSeq then 13 else 11) ∧
    (exchange s.cfg s.dev (initFrames s.cfg s.straps.strategy ranges) s.busIn = some (rs, d, b) →
      ∃ t, Sys2Proof.core.run 25 s = .next t ∧ t.inbox = l ∧ t.drvState = .ready ∧ t.initialized = true ∧
        t.range = ranges ∧ t.valid = 0 ∧ (t.autoArmed = true ↔ s.straps.strategy = .autoSeq) ∧
        t.dev = d ∧ t.busIn = b ∧
        t.hist.filter Event.isFrame =
          s.hist.filter Event.isFrame ++ frameEvents (initFrames s.cfg s.straps.strategy ranges) rs ∧
        t.sched = { s.sched with started := true, deadline := max s.now now, missed := 0 }) ∧
    (∀ (m : Nat) (f : FrameReq) (a : BusAnswer),
      (initFrames s.cfg s.straps.strategy ranges)[m]? = some f → a.isFault = true →
      exchange s.cfg s.dev ((initFrames s.cfg s.straps.strategy ranges).take m) s.busIn = some (rs, d, a :: b) →
      ∃ n t, n ≤ 25 ∧ Sys2Proof.core.run n s = .next t ∧ t.inbox = l ∧ t.busy = false ∧
        t.drvState = .uninitialized ∧ t.busIn = b ∧
        t.hist.filter Event.isFrame =
          s.hist.filter Event.isFrame
            ++ frameEvents ((initFrames s.cfg s.straps.strategy ranges).take m) rs ++ [a.faultEvent f.1 f.2] ∧
        t.sched = { s.sched with reports := s.sched.reports ++ [.initFailed .busFault] })
end

