-- ==== Sys2Proof/Laws/Memory.lean ====
section
/-! SUPPORT. The laws of PR: a read after a write, and the canonical form (Machine/Memory.lean). -/

namespace Sys2Proof.Machine

open Sys2Proof

theorem Memory.read_put_same (c : Config) (a : Nat) (v : Byte) (m : List Host.Cell)
    (h : Memory.read c m a = Memory.unlisted c a) : Memory.read c (Memory.put c a v m) a = v := by
  unfold Memory.put
  split
  · rename_i hv; rw [h, hv]
  · simp [Memory.read]

theorem Memory.read_put_other (c : Config) {a b : Nat} (v : Byte) (m : List Host.Cell) (h : b ≠ a) :
    Memory.read c (Memory.put c a v m) b = Memory.read c m b := by
  unfold Memory.put
  split
  · rfl
  · simp [Memory.read, h]

/-- Below the first address of a canonical list every address reads as unlisted. -/
theorem Memory.read_below (c : Config) {m : List Host.Cell} {lo a : Nat} (h : Memory.wfFrom c lo m = true)
    (ha : a < lo) : Memory.read c m a = Memory.unlisted c a := by
  induction m generalizing lo with
  | nil => rfl
  | cons p m ih =>
    obtain ⟨b, v⟩ := p
    simp only [Memory.wfFrom, Bool.and_eq_true, decide_eq_true_eq] at h
    have hb : a ≠ b := by omega
    simp only [Memory.read, if_neg hb]
    exact ih h.2 (by omega)

theorem Memory.wfFrom_mono (c : Config) {m : List Host.Cell} {lo lo' : Nat} (h : Memory.wfFrom c lo m = true)
    (hl : lo' ≤ lo) : Memory.wfFrom c lo' m = true := by
  cases m with
  | nil => rfl
  | cons p m =>
    simp only [Memory.wfFrom, Bool.and_eq_true, decide_eq_true_eq] at h ⊢
    exact ⟨⟨⟨by omega, h.1.1.2⟩, h.1.2⟩, h.2⟩

theorem Memory.put_wfFrom (c : Config) {m : List Host.Cell} {lo a : Nat} (v : Byte)
    (h : Memory.wfFrom c (a + 1) m = true) (hl : lo ≤ a) (ha : a < Memory.size) :
    Memory.wfFrom c lo (Memory.put c a v m) = true := by
  unfold Memory.put
  split
  · exact Memory.wfFrom_mono c h (by omega)
  · rename_i hv
    simp [Memory.wfFrom, hl, ha, h, hv]

/-- A write reads back at its address. -/
theorem Memory.read_write_same (c : Config) {m : List Host.Cell} {lo : Nat} (a : Nat) (v : Byte)
    (h : Memory.wfFrom c lo m = true) : Memory.read c (Memory.write c m a v) a = v := by
  induction m generalizing lo with
  | nil => exact Memory.read_put_same c a v [] rfl
  | cons p m ih =>
    obtain ⟨b, u⟩ := p
    simp only [Memory.wfFrom, Bool.and_eq_true, decide_eq_true_eq] at h
    simp only [Memory.write]
    split
    · apply Memory.read_put_same
      have hb : a ≠ b := by omega
      simp only [Memory.read, if_neg hb]
      exact Memory.read_below c h.2 (by omega)
    · split
      · rename_i hb; subst hb
        exact Memory.read_put_same c a v m (Memory.read_below c h.2 (by omega))
      · rename_i hb
        simp only [Memory.read, if_neg hb]
        exact ih h.2

/-- A write leaves every other address alone. -/
theorem Memory.read_write_other (c : Config) (m : List Host.Cell) {a b : Nat} (v : Byte) (h : b ≠ a) :
    Memory.read c (Memory.write c m a v) b = Memory.read c m b := by
  induction m with
  | nil => exact Memory.read_put_other c v [] h
  | cons p m ih =>
    obtain ⟨d, u⟩ := p
    simp only [Memory.write]
    split
    · exact Memory.read_put_other c v _ h
    · split
      · rename_i hd; subst hd
        rw [Memory.read_put_other c v m h]
        simp [Memory.read, h]
      · simp only [Memory.read, ih]

theorem Memory.write_wfFrom (c : Config) {m : List Host.Cell} {lo a : Nat} (v : Byte)
    (h : Memory.wfFrom c lo m = true) (hl : lo ≤ a) (ha : a < Memory.size) :
    Memory.wfFrom c lo (Memory.write c m a v) = true := by
  induction m generalizing lo with
  | nil => exact Memory.put_wfFrom c v rfl hl ha
  | cons p m ih =>
    obtain ⟨b, u⟩ := p
    have h' := h
    simp only [Memory.wfFrom, Bool.and_eq_true, decide_eq_true_eq] at h
    simp only [Memory.write]
    split
    · rename_i hab
      exact Memory.put_wfFrom c v (Memory.wfFrom_mono c (lo := b) (by
        simp [Memory.wfFrom, h.1.1.2, h.1.2, h.2]) (by omega)) hl ha
    · split
      · rename_i hb; subst hb
        exact Memory.put_wfFrom c v h.2 hl ha
      · simp only [Memory.wfFrom, Bool.and_eq_true, decide_eq_true_eq]
        exact ⟨h.1, ih h.2 (by omega)⟩

/-- Every write keeps the canonical form of PR. -/
theorem Memory.write_wf (c : Config) {m : List Host.Cell} (a : BitVec 7) (v : Byte)
    (h : Memory.wf c m = true) : Memory.wf c (Memory.write c m a.toNat v) = true :=
  Memory.write_wfFrom c v h (Nat.zero_le _) (by have := a.isLt; unfold Memory.size; omega)

/-- Every frame DEV receives keeps the canonical form of PR. -/
theorem Dev.receive_wf (c : Config) (w : Width) (tx : TxWord) (d : Dev) (h : Memory.wf c d.pr = true) :
    Memory.wf c (d.receive c w tx).pr = true := by
  have hnil : Memory.wf c [] = true := rfl
  cases w with
  | w16 => exact h
  | w24 =>
    simp only [Dev.receive, Dev.act]
    split
    · exact Memory.write_wf c _ _ h
    · exact h
  | w32 =>
    simp only [Dev.receive, Dev.act, Dev.command]
    split
    · exact hnil
    · split
      · unfold Dev.autoRst; split <;> exact h
      · split
        · unfold Dev.noOp
          split
          · exact h
          · split <;> exact h
          · exact h
        · split <;> exact h

/-- The memory of the reset state has its canonical form. -/
theorem Memory.reset_wf : Memory.wf State.reset.cfg State.reset.dev.pr = true := rfl

end Sys2Proof.Machine
end

