-- ==== Sys2Proof/Laws/State.lean ====
section
/-! SUPPORT. One lemma per field per named update of `State`, so that no proof unfolds a record update. -/

namespace Sys2Proof.Machine

open Sys2Proof

/-! ## `State.emit` -/

@[simp] theorem State.emit_drvState (s : State) (e : Event) : (s.emit e).drvState = s.drvState := rfl
@[simp] theorem State.emit_range (s : State) (e : Event) : (s.emit e).range = s.range := rfl
@[simp] theorem State.emit_code (s : State) (e : Event) : (s.emit e).code = s.code := rfl
@[simp] theorem State.emit_valid (s : State) (e : Event) : (s.emit e).valid = s.valid := rfl
@[simp] theorem State.emit_stage (s : State) (e : Event) : (s.emit e).stage = s.stage := rfl
@[simp] theorem State.emit_svalid (s : State) (e : Event) : (s.emit e).svalid = s.svalid := rfl
@[simp] theorem State.emit_autoArmed (s : State) (e : Event) : (s.emit e).autoArmed = s.autoArmed := rfl
@[simp] theorem State.emit_busy (s : State) (e : Event) : (s.emit e).busy = s.busy := rfl
@[simp] theorem State.emit_curCw (s : State) (e : Event) : (s.emit e).curCw = s.curCw := rfl
@[simp] theorem State.emit_curStatus (s : State) (e : Event) : (s.emit e).curStatus = s.curStatus := rfl
@[simp] theorem State.emit_seqK (s : State) (e : Event) : (s.emit e).seqK = s.seqK := rfl
@[simp] theorem State.emit_bufLock (s : State) (e : Event) : (s.emit e).bufLock = s.bufLock := rfl
@[simp] theorem State.emit_ft (s : State) (e : Event) : (s.emit e).ft = s.ft := rfl
@[simp] theorem State.emit_straps (s : State) (e : Event) : (s.emit e).straps = s.straps := rfl
@[simp] theorem State.emit_cfg (s : State) (e : Event) : (s.emit e).cfg = s.cfg := rfl
@[simp] theorem State.emit_pResp (s : State) (e : Event) : (s.emit e).pResp = s.pResp := rfl
@[simp] theorem State.emit_cResp (s : State) (e : Event) : (s.emit e).cResp = s.cResp := rfl
@[simp] theorem State.emit_ftReply (s : State) (e : Event) : (s.emit e).ftReply = s.ftReply := rfl
@[simp] theorem State.emit_hist (s : State) (e : Event) : (s.emit e).hist = s.hist ++ [e] := rfl
@[simp] theorem State.emit_port (s : State) (e : Event) : (s.emit e).port = s.port := rfl
@[simp] theorem State.emit_bench (s : State) (e : Event) : (s.emit e).bench = s.bench := rfl
@[simp] theorem State.emit_epoch (s : State) (e : Event) : (s.emit e).epoch = s.epoch := rfl
@[simp] theorem State.emit_dev (s : State) (e : Event) : (s.emit e).dev = s.dev := rfl
@[simp] theorem State.emit_sched (s : State) (e : Event) : (s.emit e).sched = s.sched := rfl
@[simp] theorem State.emit_now (s : State) (e : Event) : (s.emit e).now = s.now := rfl
@[simp] theorem State.emit_inbox (s : State) (e : Event) : (s.emit e).inbox = s.inbox := rfl
@[simp] theorem State.emit_slots (s : State) (e : Event) : (s.emit e).slots = s.slots := rfl
@[simp] theorem State.emit_busIn (s : State) (e : Event) : (s.emit e).busIn = s.busIn := rfl
@[simp] theorem State.emit_lineIn (s : State) (e : Event) : (s.emit e).lineIn = s.lineIn := rfl

/-! ## `State.goto` -/

@[simp] theorem State.goto_drvState (s : State) (k : Nat) : (s.goto k).drvState = s.drvState := rfl
@[simp] theorem State.goto_range (s : State) (k : Nat) : (s.goto k).range = s.range := rfl
@[simp] theorem State.goto_code (s : State) (k : Nat) : (s.goto k).code = s.code := rfl
@[simp] theorem State.goto_valid (s : State) (k : Nat) : (s.goto k).valid = s.valid := rfl
@[simp] theorem State.goto_stage (s : State) (k : Nat) : (s.goto k).stage = s.stage := rfl
@[simp] theorem State.goto_svalid (s : State) (k : Nat) : (s.goto k).svalid = s.svalid := rfl
@[simp] theorem State.goto_autoArmed (s : State) (k : Nat) : (s.goto k).autoArmed = s.autoArmed := rfl
@[simp] theorem State.goto_busy (s : State) (k : Nat) : (s.goto k).busy = s.busy := rfl
@[simp] theorem State.goto_curCw (s : State) (k : Nat) : (s.goto k).curCw = s.curCw := rfl
@[simp] theorem State.goto_curStatus (s : State) (k : Nat) : (s.goto k).curStatus = s.curStatus := rfl
@[simp] theorem State.goto_seqK (s : State) (k : Nat) : (s.goto k).seqK = k := rfl
@[simp] theorem State.goto_bufLock (s : State) (k : Nat) : (s.goto k).bufLock = s.bufLock := rfl
@[simp] theorem State.goto_ft (s : State) (k : Nat) : (s.goto k).ft = s.ft := rfl
@[simp] theorem State.goto_straps (s : State) (k : Nat) : (s.goto k).straps = s.straps := rfl
@[simp] theorem State.goto_cfg (s : State) (k : Nat) : (s.goto k).cfg = s.cfg := rfl
@[simp] theorem State.goto_pResp (s : State) (k : Nat) : (s.goto k).pResp = s.pResp := rfl
@[simp] theorem State.goto_cResp (s : State) (k : Nat) : (s.goto k).cResp = s.cResp := rfl
@[simp] theorem State.goto_ftReply (s : State) (k : Nat) : (s.goto k).ftReply = s.ftReply := rfl
@[simp] theorem State.goto_hist (s : State) (k : Nat) : (s.goto k).hist = s.hist := rfl
@[simp] theorem State.goto_port (s : State) (k : Nat) : (s.goto k).port = s.port := rfl
@[simp] theorem State.goto_bench (s : State) (k : Nat) : (s.goto k).bench = s.bench := rfl
@[simp] theorem State.goto_epoch (s : State) (k : Nat) : (s.goto k).epoch = s.epoch := rfl
@[simp] theorem State.goto_dev (s : State) (k : Nat) : (s.goto k).dev = s.dev := rfl
@[simp] theorem State.goto_sched (s : State) (k : Nat) : (s.goto k).sched = s.sched := rfl
@[simp] theorem State.goto_now (s : State) (k : Nat) : (s.goto k).now = s.now := rfl
@[simp] theorem State.goto_inbox (s : State) (k : Nat) : (s.goto k).inbox = s.inbox := rfl
@[simp] theorem State.goto_slots (s : State) (k : Nat) : (s.goto k).slots = s.slots := rfl
@[simp] theorem State.goto_busIn (s : State) (k : Nat) : (s.goto k).busIn = s.busIn := rfl
@[simp] theorem State.goto_lineIn (s : State) (k : Nat) : (s.goto k).lineIn = s.lineIn := rfl

/-! ## `State.acceptP` -/

@[simp] theorem State.acceptP_drvState (s : State) (cw : HostWord) : (s.acceptP cw).drvState = s.drvState := rfl
@[simp] theorem State.acceptP_range (s : State) (cw : HostWord) : (s.acceptP cw).range = s.range := rfl
@[simp] theorem State.acceptP_code (s : State) (cw : HostWord) : (s.acceptP cw).code = s.code := rfl
@[simp] theorem State.acceptP_valid (s : State) (cw : HostWord) : (s.acceptP cw).valid = s.valid := rfl
@[simp] theorem State.acceptP_stage (s : State) (cw : HostWord) : (s.acceptP cw).stage = s.stage := rfl
@[simp] theorem State.acceptP_svalid (s : State) (cw : HostWord) : (s.acceptP cw).svalid = s.svalid := rfl
@[simp] theorem State.acceptP_autoArmed (s : State) (cw : HostWord) : (s.acceptP cw).autoArmed = s.autoArmed := rfl
@[simp] theorem State.acceptP_busy (s : State) (cw : HostWord) : (s.acceptP cw).busy = true := rfl
@[simp] theorem State.acceptP_curCw (s : State) (cw : HostWord) : (s.acceptP cw).curCw = cw := rfl
@[simp] theorem State.acceptP_curStatus (s : State) (cw : HostWord) : (s.acceptP cw).curStatus = s.curStatus := rfl
@[simp] theorem State.acceptP_seqK (s : State) (cw : HostWord) : (s.acceptP cw).seqK = 0 := rfl
@[simp] theorem State.acceptP_bufLock (s : State) (cw : HostWord) : (s.acceptP cw).bufLock = s.bufLock := rfl
@[simp] theorem State.acceptP_ft (s : State) (cw : HostWord) : (s.acceptP cw).ft = s.ft := rfl
@[simp] theorem State.acceptP_straps (s : State) (cw : HostWord) : (s.acceptP cw).straps = s.straps := rfl
@[simp] theorem State.acceptP_cfg (s : State) (cw : HostWord) : (s.acceptP cw).cfg = s.cfg := rfl
@[simp] theorem State.acceptP_pResp (s : State) (cw : HostWord) : (s.acceptP cw).pResp = s.pResp := rfl
@[simp] theorem State.acceptP_cResp (s : State) (cw : HostWord) : (s.acceptP cw).cResp = s.cResp := rfl
@[simp] theorem State.acceptP_ftReply (s : State) (cw : HostWord) : (s.acceptP cw).ftReply = s.ftReply := rfl
@[simp] theorem State.acceptP_hist (s : State) (cw : HostWord) : (s.acceptP cw).hist = s.hist ++ [.op .P cw] := rfl
@[simp] theorem State.acceptP_port (s : State) (cw : HostWord) : (s.acceptP cw).port = s.port := rfl
@[simp] theorem State.acceptP_bench (s : State) (cw : HostWord) : (s.acceptP cw).bench = s.bench := rfl
@[simp] theorem State.acceptP_epoch (s : State) (cw : HostWord) : (s.acceptP cw).epoch = s.epoch := rfl
@[simp] theorem State.acceptP_dev (s : State) (cw : HostWord) : (s.acceptP cw).dev = s.dev := rfl
@[simp] theorem State.acceptP_sched (s : State) (cw : HostWord) : (s.acceptP cw).sched = s.sched := rfl
@[simp] theorem State.acceptP_now (s : State) (cw : HostWord) : (s.acceptP cw).now = s.now := rfl
@[simp] theorem State.acceptP_inbox (s : State) (cw : HostWord) : (s.acceptP cw).inbox = s.inbox := rfl
@[simp] theorem State.acceptP_slots (s : State) (cw : HostWord) : (s.acceptP cw).slots = s.slots := rfl
@[simp] theorem State.acceptP_busIn (s : State) (cw : HostWord) : (s.acceptP cw).busIn = s.busIn := rfl
@[simp] theorem State.acceptP_lineIn (s : State) (cw : HostWord) : (s.acceptP cw).lineIn = s.lineIn := rfl

/-! ## `State.respondP` -/

@[simp] theorem State.respondP_drvState (s : State) (r : Response) : (s.respondP r).drvState = s.drvState := rfl
@[simp] theorem State.respondP_range (s : State) (r : Response) : (s.respondP r).range = s.range := rfl
@[simp] theorem State.respondP_code (s : State) (r : Response) : (s.respondP r).code = s.code := rfl
@[simp] theorem State.respondP_valid (s : State) (r : Response) : (s.respondP r).valid = s.valid := rfl
@[simp] theorem State.respondP_stage (s : State) (r : Response) : (s.respondP r).stage = s.stage := rfl
@[simp] theorem State.respondP_svalid (s : State) (r : Response) : (s.respondP r).svalid = s.svalid := rfl
@[simp] theorem State.respondP_autoArmed (s : State) (r : Response) : (s.respondP r).autoArmed = s.autoArmed := rfl
@[simp] theorem State.respondP_busy (s : State) (r : Response) : (s.respondP r).busy = false := rfl
@[simp] theorem State.respondP_curCw (s : State) (r : Response) : (s.respondP r).curCw = s.curCw := rfl
@[simp] theorem State.respondP_curStatus (s : State) (r : Response) : (s.respondP r).curStatus = r.status := rfl
@[simp] theorem State.respondP_seqK (s : State) (r : Response) : (s.respondP r).seqK = s.seqK := rfl
@[simp] theorem State.respondP_bufLock (s : State) (r : Response) : (s.respondP r).bufLock = s.bufLock := rfl
@[simp] theorem State.respondP_ft (s : State) (r : Response) : (s.respondP r).ft = s.ft := rfl
@[simp] theorem State.respondP_straps (s : State) (r : Response) : (s.respondP r).straps = s.straps := rfl
@[simp] theorem State.respondP_cfg (s : State) (r : Response) : (s.respondP r).cfg = s.cfg := rfl
@[simp] theorem State.respondP_pResp (s : State) (r : Response) : (s.respondP r).pResp = some r := rfl
@[simp] theorem State.respondP_cResp (s : State) (r : Response) : (s.respondP r).cResp = s.cResp := rfl
@[simp] theorem State.respondP_ftReply (s : State) (r : Response) : (s.respondP r).ftReply = s.ftReply := rfl
@[simp] theorem State.respondP_hist (s : State) (r : Response) : (s.respondP r).hist = s.hist ++ [.resp .P r] := rfl
@[simp] theorem State.respondP_port (s : State) (r : Response) : (s.respondP r).port = s.port := rfl
@[simp] theorem State.respondP_bench (s : State) (r : Response) : (s.respondP r).bench = s.bench := rfl
@[simp] theorem State.respondP_epoch (s : State) (r : Response) : (s.respondP r).epoch = s.epoch := rfl
@[simp] theorem State.respondP_dev (s : State) (r : Response) : (s.respondP r).dev = s.dev := rfl
@[simp] theorem State.respondP_sched (s : State) (r : Response) : (s.respondP r).sched = s.sched := rfl
@[simp] theorem State.respondP_now (s : State) (r : Response) : (s.respondP r).now = s.now := rfl
@[simp] theorem State.respondP_inbox (s : State) (r : Response) : (s.respondP r).inbox = s.inbox := rfl
@[simp] theorem State.respondP_slots (s : State) (r : Response) : (s.respondP r).slots = s.slots := rfl
@[simp] theorem State.respondP_busIn (s : State) (r : Response) : (s.respondP r).busIn = s.busIn := rfl
@[simp] theorem State.respondP_lineIn (s : State) (r : Response) : (s.respondP r).lineIn = s.lineIn := rfl

/-! ## `State.respondC` -/

@[simp] theorem State.respondC_drvState (s : State) (r : Response) : (s.respondC r).drvState = s.drvState := rfl
@[simp] theorem State.respondC_range (s : State) (r : Response) : (s.respondC r).range = s.range := rfl
@[simp] theorem State.respondC_code (s : State) (r : Response) : (s.respondC r).code = s.code := rfl
@[simp] theorem State.respondC_valid (s : State) (r : Response) : (s.respondC r).valid = s.valid := rfl
@[simp] theorem State.respondC_stage (s : State) (r : Response) : (s.respondC r).stage = s.stage := rfl
@[simp] theorem State.respondC_svalid (s : State) (r : Response) : (s.respondC r).svalid = s.svalid := rfl
@[simp] theorem State.respondC_autoArmed (s : State) (r : Response) : (s.respondC r).autoArmed = s.autoArmed := rfl
@[simp] theorem State.respondC_busy (s : State) (r : Response) : (s.respondC r).busy = s.busy := rfl
@[simp] theorem State.respondC_curCw (s : State) (r : Response) : (s.respondC r).curCw = s.curCw := rfl
@[simp] theorem State.respondC_curStatus (s : State) (r : Response) : (s.respondC r).curStatus = s.curStatus := rfl
@[simp] theorem State.respondC_seqK (s : State) (r : Response) : (s.respondC r).seqK = s.seqK := rfl
@[simp] theorem State.respondC_bufLock (s : State) (r : Response) : (s.respondC r).bufLock = s.bufLock := rfl
@[simp] theorem State.respondC_ft (s : State) (r : Response) : (s.respondC r).ft = s.ft := rfl
@[simp] theorem State.respondC_straps (s : State) (r : Response) : (s.respondC r).straps = s.straps := rfl
@[simp] theorem State.respondC_cfg (s : State) (r : Response) : (s.respondC r).cfg = s.cfg := rfl
@[simp] theorem State.respondC_pResp (s : State) (r : Response) : (s.respondC r).pResp = s.pResp := rfl
@[simp] theorem State.respondC_cResp (s : State) (r : Response) : (s.respondC r).cResp = some r := rfl
@[simp] theorem State.respondC_ftReply (s : State) (r : Response) : (s.respondC r).ftReply = s.ftReply := rfl
@[simp] theorem State.respondC_hist (s : State) (r : Response) : (s.respondC r).hist = s.hist ++ [.resp .C r] := rfl
@[simp] theorem State.respondC_port (s : State) (r : Response) : (s.respondC r).port = s.port := rfl
@[simp] theorem State.respondC_bench (s : State) (r : Response) : (s.respondC r).bench = s.bench := rfl
@[simp] theorem State.respondC_epoch (s : State) (r : Response) : (s.respondC r).epoch = s.epoch := rfl
@[simp] theorem State.respondC_dev (s : State) (r : Response) : (s.respondC r).dev = s.dev := rfl
@[simp] theorem State.respondC_sched (s : State) (r : Response) : (s.respondC r).sched = s.sched := rfl
@[simp] theorem State.respondC_now (s : State) (r : Response) : (s.respondC r).now = s.now := rfl
@[simp] theorem State.respondC_inbox (s : State) (r : Response) : (s.respondC r).inbox = s.inbox := rfl
@[simp] theorem State.respondC_slots (s : State) (r : Response) : (s.respondC r).slots = s.slots := rfl
@[simp] theorem State.respondC_busIn (s : State) (r : Response) : (s.respondC r).busIn = s.busIn := rfl
@[simp] theorem State.respondC_lineIn (s : State) (r : Response) : (s.respondC r).lineIn = s.lineIn := rfl

/-! ## `State.clearOutputs` -/

@[simp] theorem State.clearOutputs_drvState (s : State) : (s.clearOutputs).drvState = s.drvState := rfl
@[simp] theorem State.clearOutputs_range (s : State) : (s.clearOutputs).range = s.range := rfl
@[simp] theorem State.clearOutputs_code (s : State) : (s.clearOutputs).code = s.code := rfl
@[simp] theorem State.clearOutputs_valid (s : State) : (s.clearOutputs).valid = s.valid := rfl
@[simp] theorem State.clearOutputs_stage (s : State) : (s.clearOutputs).stage = s.stage := rfl
@[simp] theorem State.clearOutputs_svalid (s : State) : (s.clearOutputs).svalid = s.svalid := rfl
@[simp] theorem State.clearOutputs_autoArmed (s : State) : (s.clearOutputs).autoArmed = s.autoArmed := rfl
@[simp] theorem State.clearOutputs_busy (s : State) : (s.clearOutputs).busy = s.busy := rfl
@[simp] theorem State.clearOutputs_curCw (s : State) : (s.clearOutputs).curCw = s.curCw := rfl
@[simp] theorem State.clearOutputs_curStatus (s : State) : (s.clearOutputs).curStatus = s.curStatus := rfl
@[simp] theorem State.clearOutputs_seqK (s : State) : (s.clearOutputs).seqK = s.seqK := rfl
@[simp] theorem State.clearOutputs_bufLock (s : State) : (s.clearOutputs).bufLock = s.bufLock := rfl
@[simp] theorem State.clearOutputs_ft (s : State) : (s.clearOutputs).ft = s.ft := rfl
@[simp] theorem State.clearOutputs_straps (s : State) : (s.clearOutputs).straps = s.straps := rfl
@[simp] theorem State.clearOutputs_cfg (s : State) : (s.clearOutputs).cfg = s.cfg := rfl
@[simp] theorem State.clearOutputs_pResp (s : State) : (s.clearOutputs).pResp = none := rfl
@[simp] theorem State.clearOutputs_cResp (s : State) : (s.clearOutputs).cResp = none := rfl
@[simp] theorem State.clearOutputs_ftReply (s : State) : (s.clearOutputs).ftReply = none := rfl
@[simp] theorem State.clearOutputs_hist (s : State) : (s.clearOutputs).hist = s.hist := rfl
@[simp] theorem State.clearOutputs_port (s : State) : (s.clearOutputs).port = s.port := rfl
@[simp] theorem State.clearOutputs_bench (s : State) : (s.clearOutputs).bench = s.bench := rfl
@[simp] theorem State.clearOutputs_epoch (s : State) : (s.clearOutputs).epoch = s.epoch := rfl
@[simp] theorem State.clearOutputs_dev (s : State) : (s.clearOutputs).dev = s.dev := rfl
@[simp] theorem State.clearOutputs_sched (s : State) : (s.clearOutputs).sched = s.sched := rfl
@[simp] theorem State.clearOutputs_now (s : State) : (s.clearOutputs).now = s.now := rfl
@[simp] theorem State.clearOutputs_inbox (s : State) : (s.clearOutputs).inbox = s.inbox := rfl
@[simp] theorem State.clearOutputs_slots (s : State) : (s.clearOutputs).slots = s.slots := rfl
@[simp] theorem State.clearOutputs_busIn (s : State) : (s.clearOutputs).busIn = s.busIn := rfl
@[simp] theorem State.clearOutputs_lineIn (s : State) : (s.clearOutputs).lineIn = s.lineIn := rfl

/-! ## `State.writeBuffer` -/

@[simp] theorem State.writeBuffer_drvState (s : State) (code : Vector Code 8) (valid : BitVec 8) : (s.writeBuffer code valid).drvState = s.drvState := rfl
@[simp] theorem State.writeBuffer_range (s : State) (code : Vector Code 8) (valid : BitVec 8) : (s.writeBuffer code valid).range = s.range := rfl
@[simp] theorem State.writeBuffer_code (s : State) (code : Vector Code 8) (valid : BitVec 8) : (s.writeBuffer code valid).code = code := rfl
@[simp] theorem State.writeBuffer_valid (s : State) (code : Vector Code 8) (valid : BitVec 8) : (s.writeBuffer code valid).valid = valid := rfl
@[simp] theorem State.writeBuffer_stage (s : State) (code : Vector Code 8) (valid : BitVec 8) : (s.writeBuffer code valid).stage = s.stage := rfl
@[simp] theorem State.writeBuffer_svalid (s : State) (code : Vector Code 8) (valid : BitVec 8) : (s.writeBuffer code valid).svalid = s.svalid := rfl
@[simp] theorem State.writeBuffer_autoArmed (s : State) (code : Vector Code 8) (valid : BitVec 8) : (s.writeBuffer code valid).autoArmed = s.autoArmed := rfl
@[simp] theorem State.writeBuffer_busy (s : State) (code : Vector Code 8) (valid : BitVec 8) : (s.writeBuffer code valid).busy = s.busy := rfl
@[simp] theorem State.writeBuffer_curCw (s : State) (code : Vector Code 8) (valid : BitVec 8) : (s.writeBuffer code valid).curCw = s.curCw := rfl
@[simp] theorem State.writeBuffer_curStatus (s : State) (code : Vector Code 8) (valid : BitVec 8) : (s.writeBuffer code valid).curStatus = s.curStatus := rfl
@[simp] theorem State.writeBuffer_seqK (s : State) (code : Vector Code 8) (valid : BitVec 8) : (s.writeBuffer code valid).seqK = s.seqK := rfl
@[simp] theorem State.writeBuffer_bufLock (s : State) (code : Vector Code 8) (valid : BitVec 8) : (s.writeBuffer code valid).bufLock = .free := rfl
@[simp] theorem State.writeBuffer_ft (s : State) (code : Vector Code 8) (valid : BitVec 8) : (s.writeBuffer code valid).ft = s.ft := rfl
@[simp] theorem State.writeBuffer_straps (s : State) (code : Vector Code 8) (valid : BitVec 8) : (s.writeBuffer code valid).straps = s.straps := rfl
@[simp] theorem State.writeBuffer_cfg (s : State) (code : Vector Code 8) (valid : BitVec 8) : (s.writeBuffer code valid).cfg = s.cfg := rfl
@[simp] theorem State.writeBuffer_pResp (s : State) (code : Vector Code 8) (valid : BitVec 8) : (s.writeBuffer code valid).pResp = s.pResp := rfl
@[simp] theorem State.writeBuffer_cResp (s : State) (code : Vector Code 8) (valid : BitVec 8) : (s.writeBuffer code valid).cResp = s.cResp := rfl
@[simp] theorem State.writeBuffer_ftReply (s : State) (code : Vector Code 8) (valid : BitVec 8) : (s.writeBuffer code valid).ftReply = s.ftReply := rfl
@[simp] theorem State.writeBuffer_hist (s : State) (code : Vector Code 8) (valid : BitVec 8) : (s.writeBuffer code valid).hist = s.hist := rfl
@[simp] theorem State.writeBuffer_port (s : State) (code : Vector Code 8) (valid : BitVec 8) : (s.writeBuffer code valid).port = s.port := rfl
@[simp] theorem State.writeBuffer_bench (s : State) (code : Vector Code 8) (valid : BitVec 8) : (s.writeBuffer code valid).bench = s.bench := rfl
@[simp] theorem State.writeBuffer_epoch (s : State) (code : Vector Code 8) (valid : BitVec 8) : (s.writeBuffer code valid).epoch = s.epoch + 1 := rfl
@[simp] theorem State.writeBuffer_dev (s : State) (code : Vector Code 8) (valid : BitVec 8) : (s.writeBuffer code valid).dev = s.dev := rfl
@[simp] theorem State.writeBuffer_sched (s : State) (code : Vector Code 8) (valid : BitVec 8) : (s.writeBuffer code valid).sched = s.sched := rfl
@[simp] theorem State.writeBuffer_now (s : State) (code : Vector Code 8) (valid : BitVec 8) : (s.writeBuffer code valid).now = s.now := rfl
@[simp] theorem State.writeBuffer_inbox (s : State) (code : Vector Code 8) (valid : BitVec 8) : (s.writeBuffer code valid).inbox = s.inbox := rfl
@[simp] theorem State.writeBuffer_slots (s : State) (code : Vector Code 8) (valid : BitVec 8) : (s.writeBuffer code valid).slots = s.slots := rfl
@[simp] theorem State.writeBuffer_busIn (s : State) (code : Vector Code 8) (valid : BitVec 8) : (s.writeBuffer code valid).busIn = s.busIn := rfl
@[simp] theorem State.writeBuffer_lineIn (s : State) (code : Vector Code 8) (valid : BitVec 8) : (s.writeBuffer code valid).lineIn = s.lineIn := rfl

/-! ## `State.commit` -/

@[simp] theorem State.commit_drvState (s : State) (code : Vector Code 8) (valid : BitVec 8) : (s.commit code valid).drvState = s.drvState := rfl
@[simp] theorem State.commit_range (s : State) (code : Vector Code 8) (valid : BitVec 8) : (s.commit code valid).range = s.range := rfl
@[simp] theorem State.commit_code (s : State) (code : Vector Code 8) (valid : BitVec 8) : (s.commit code valid).code = code := rfl
@[simp] theorem State.commit_valid (s : State) (code : Vector Code 8) (valid : BitVec 8) : (s.commit code valid).valid = valid := rfl
@[simp] theorem State.commit_stage (s : State) (code : Vector Code 8) (valid : BitVec 8) : (s.commit code valid).stage = s.stage := rfl
@[simp] theorem State.commit_svalid (s : State) (code : Vector Code 8) (valid : BitVec 8) : (s.commit code valid).svalid = s.svalid := rfl
@[simp] theorem State.commit_autoArmed (s : State) (code : Vector Code 8) (valid : BitVec 8) : (s.commit code valid).autoArmed = s.autoArmed := rfl
@[simp] theorem State.commit_busy (s : State) (code : Vector Code 8) (valid : BitVec 8) : (s.commit code valid).busy = s.busy := rfl
@[simp] theorem State.commit_curCw (s : State) (code : Vector Code 8) (valid : BitVec 8) : (s.commit code valid).curCw = s.curCw := rfl
@[simp] theorem State.commit_curStatus (s : State) (code : Vector Code 8) (valid : BitVec 8) : (s.commit code valid).curStatus = s.curStatus := rfl
@[simp] theorem State.commit_seqK (s : State) (code : Vector Code 8) (valid : BitVec 8) : (s.commit code valid).seqK = s.seqK := rfl
@[simp] theorem State.commit_bufLock (s : State) (code : Vector Code 8) (valid : BitVec 8) : (s.commit code valid).bufLock = .free := rfl
@[simp] theorem State.commit_ft (s : State) (code : Vector Code 8) (valid : BitVec 8) : (s.commit code valid).ft = s.ft := rfl
@[simp] theorem State.commit_straps (s : State) (code : Vector Code 8) (valid : BitVec 8) : (s.commit code valid).straps = s.straps := rfl
@[simp] theorem State.commit_cfg (s : State) (code : Vector Code 8) (valid : BitVec 8) : (s.commit code valid).cfg = s.cfg := rfl
@[simp] theorem State.commit_pResp (s : State) (code : Vector Code 8) (valid : BitVec 8) : (s.commit code valid).pResp = s.pResp := rfl
@[simp] theorem State.commit_cResp (s : State) (code : Vector Code 8) (valid : BitVec 8) : (s.commit code valid).cResp = s.cResp := rfl
@[simp] theorem State.commit_ftReply (s : State) (code : Vector Code 8) (valid : BitVec 8) : (s.commit code valid).ftReply = s.ftReply := rfl
@[simp] theorem State.commit_hist (s : State) (code : Vector Code 8) (valid : BitVec 8) : (s.commit code valid).hist = s.hist ++ [.commit (s.writeBuffer code valid).lanes valid] := rfl
@[simp] theorem State.commit_port (s : State) (code : Vector Code 8) (valid : BitVec 8) : (s.commit code valid).port = s.port := rfl
@[simp] theorem State.commit_bench (s : State) (code : Vector Code 8) (valid : BitVec 8) : (s.commit code valid).bench = s.bench := rfl
@[simp] theorem State.commit_epoch (s : State) (code : Vector Code 8) (valid : BitVec 8) : (s.commit code valid).epoch = s.epoch + 1 := rfl
@[simp] theorem State.commit_dev (s : State) (code : Vector Code 8) (valid : BitVec 8) : (s.commit code valid).dev = s.dev := rfl
@[simp] theorem State.commit_sched (s : State) (code : Vector Code 8) (valid : BitVec 8) : (s.commit code valid).sched = s.sched := rfl
@[simp] theorem State.commit_now (s : State) (code : Vector Code 8) (valid : BitVec 8) : (s.commit code valid).now = s.now := rfl
@[simp] theorem State.commit_inbox (s : State) (code : Vector Code 8) (valid : BitVec 8) : (s.commit code valid).inbox = s.inbox := rfl
@[simp] theorem State.commit_slots (s : State) (code : Vector Code 8) (valid : BitVec 8) : (s.commit code valid).slots = s.slots := rfl
@[simp] theorem State.commit_busIn (s : State) (code : Vector Code 8) (valid : BitVec 8) : (s.commit code valid).busIn = s.busIn := rfl
@[simp] theorem State.commit_lineIn (s : State) (code : Vector Code 8) (valid : BitVec 8) : (s.commit code valid).lineIn = s.lineIn := rfl

/-! ## `State.capture` -/

@[simp] theorem State.capture_drvState (s : State) (c : Chan) (rx : BitVec 32) : (s.capture c rx).drvState = s.drvState := rfl
@[simp] theorem State.capture_range (s : State) (c : Chan) (rx : BitVec 32) : (s.capture c rx).range = s.range := rfl
@[simp] theorem State.capture_code (s : State) (c : Chan) (rx : BitVec 32) : (s.capture c rx).code = s.code := rfl
@[simp] theorem State.capture_valid (s : State) (c : Chan) (rx : BitVec 32) : (s.capture c rx).valid = s.valid := rfl
@[simp] theorem State.capture_stage (s : State) (c : Chan) (rx : BitVec 32) : (s.capture c rx).stage = s.stage.set c (rx.extractLsb' 0 16) := rfl
@[simp] theorem State.capture_svalid (s : State) (c : Chan) (rx : BitVec 32) : (s.capture c rx).svalid = setFlag s.svalid c := rfl
@[simp] theorem State.capture_autoArmed (s : State) (c : Chan) (rx : BitVec 32) : (s.capture c rx).autoArmed = s.autoArmed := rfl
@[simp] theorem State.capture_busy (s : State) (c : Chan) (rx : BitVec 32) : (s.capture c rx).busy = s.busy := rfl
@[simp] theorem State.capture_curCw (s : State) (c : Chan) (rx : BitVec 32) : (s.capture c rx).curCw = s.curCw := rfl
@[simp] theorem State.capture_curStatus (s : State) (c : Chan) (rx : BitVec 32) : (s.capture c rx).curStatus = s.curStatus := rfl
@[simp] theorem State.capture_seqK (s : State) (c : Chan) (rx : BitVec 32) : (s.capture c rx).seqK = s.seqK := rfl
@[simp] theorem State.capture_bufLock (s : State) (c : Chan) (rx : BitVec 32) : (s.capture c rx).bufLock = s.bufLock := rfl
@[simp] theorem State.capture_ft (s : State) (c : Chan) (rx : BitVec 32) : (s.capture c rx).ft = s.ft := rfl
@[simp] theorem State.capture_straps (s : State) (c : Chan) (rx : BitVec 32) : (s.capture c rx).straps = s.straps := rfl
@[simp] theorem State.capture_cfg (s : State) (c : Chan) (rx : BitVec 32) : (s.capture c rx).cfg = s.cfg := rfl
@[simp] theorem State.capture_pResp (s : State) (c : Chan) (rx : BitVec 32) : (s.capture c rx).pResp = s.pResp := rfl
@[simp] theorem State.capture_cResp (s : State) (c : Chan) (rx : BitVec 32) : (s.capture c rx).cResp = s.cResp := rfl
@[simp] theorem State.capture_ftReply (s : State) (c : Chan) (rx : BitVec 32) : (s.capture c rx).ftReply = s.ftReply := rfl
@[simp] theorem State.capture_hist (s : State) (c : Chan) (rx : BitVec 32) : (s.capture c rx).hist = s.hist := rfl
@[simp] theorem State.capture_port (s : State) (c : Chan) (rx : BitVec 32) : (s.capture c rx).port = s.port := rfl
@[simp] theorem State.capture_bench (s : State) (c : Chan) (rx : BitVec 32) : (s.capture c rx).bench = s.bench := rfl
@[simp] theorem State.capture_epoch (s : State) (c : Chan) (rx : BitVec 32) : (s.capture c rx).epoch = s.epoch := rfl
@[simp] theorem State.capture_dev (s : State) (c : Chan) (rx : BitVec 32) : (s.capture c rx).dev = s.dev := rfl
@[simp] theorem State.capture_sched (s : State) (c : Chan) (rx : BitVec 32) : (s.capture c rx).sched = s.sched := rfl
@[simp] theorem State.capture_now (s : State) (c : Chan) (rx : BitVec 32) : (s.capture c rx).now = s.now := rfl
@[simp] theorem State.capture_inbox (s : State) (c : Chan) (rx : BitVec 32) : (s.capture c rx).inbox = s.inbox := rfl
@[simp] theorem State.capture_slots (s : State) (c : Chan) (rx : BitVec 32) : (s.capture c rx).slots = s.slots := rfl
@[simp] theorem State.capture_busIn (s : State) (c : Chan) (rx : BitVec 32) : (s.capture c rx).busIn = s.busIn := rfl
@[simp] theorem State.capture_lineIn (s : State) (c : Chan) (rx : BitVec 32) : (s.capture c rx).lineIn = s.lineIn := rfl

/-! ## `State.wait` -/

@[simp] theorem State.wait_drvState (s : State) (t : Nat) : (s.wait t).drvState = s.drvState := rfl
@[simp] theorem State.wait_range (s : State) (t : Nat) : (s.wait t).range = s.range := rfl
@[simp] theorem State.wait_code (s : State) (t : Nat) : (s.wait t).code = s.code := rfl
@[simp] theorem State.wait_valid (s : State) (t : Nat) : (s.wait t).valid = s.valid := rfl
@[simp] theorem State.wait_stage (s : State) (t : Nat) : (s.wait t).stage = s.stage := rfl
@[simp] theorem State.wait_svalid (s : State) (t : Nat) : (s.wait t).svalid = s.svalid := rfl
@[simp] theorem State.wait_autoArmed (s : State) (t : Nat) : (s.wait t).autoArmed = s.autoArmed := rfl
@[simp] theorem State.wait_busy (s : State) (t : Nat) : (s.wait t).busy = s.busy := rfl
@[simp] theorem State.wait_curCw (s : State) (t : Nat) : (s.wait t).curCw = s.curCw := rfl
@[simp] theorem State.wait_curStatus (s : State) (t : Nat) : (s.wait t).curStatus = s.curStatus := rfl
@[simp] theorem State.wait_seqK (s : State) (t : Nat) : (s.wait t).seqK = s.seqK := rfl
@[simp] theorem State.wait_bufLock (s : State) (t : Nat) : (s.wait t).bufLock = s.bufLock := rfl
@[simp] theorem State.wait_ft (s : State) (t : Nat) : (s.wait t).ft = s.ft := rfl
@[simp] theorem State.wait_straps (s : State) (t : Nat) : (s.wait t).straps = s.straps := rfl
@[simp] theorem State.wait_cfg (s : State) (t : Nat) : (s.wait t).cfg = s.cfg := rfl
@[simp] theorem State.wait_pResp (s : State) (t : Nat) : (s.wait t).pResp = s.pResp := rfl
@[simp] theorem State.wait_cResp (s : State) (t : Nat) : (s.wait t).cResp = s.cResp := rfl
@[simp] theorem State.wait_ftReply (s : State) (t : Nat) : (s.wait t).ftReply = s.ftReply := rfl
@[simp] theorem State.wait_hist (s : State) (t : Nat) : (s.wait t).hist = s.hist ++ [.delay t] := rfl
@[simp] theorem State.wait_port (s : State) (t : Nat) : (s.wait t).port = s.port := rfl
@[simp] theorem State.wait_bench (s : State) (t : Nat) : (s.wait t).bench = s.bench := rfl
@[simp] theorem State.wait_epoch (s : State) (t : Nat) : (s.wait t).epoch = s.epoch := rfl
@[simp] theorem State.wait_dev (s : State) (t : Nat) : (s.wait t).dev = s.dev := rfl
@[simp] theorem State.wait_sched (s : State) (t : Nat) : (s.wait t).sched = s.sched := rfl
@[simp] theorem State.wait_now (s : State) (t : Nat) : (s.wait t).now = s.now := rfl
@[simp] theorem State.wait_inbox (s : State) (t : Nat) : (s.wait t).inbox = s.inbox := rfl
@[simp] theorem State.wait_slots (s : State) (t : Nat) : (s.wait t).slots = s.slots := rfl
@[simp] theorem State.wait_busIn (s : State) (t : Nat) : (s.wait t).busIn = s.busIn := rfl
@[simp] theorem State.wait_lineIn (s : State) (t : Nat) : (s.wait t).lineIn = s.lineIn := rfl

/-! ## `State.csDeassert` -/

@[simp] theorem State.csDeassert_drvState (s : State) : (s.csDeassert).drvState = s.drvState := rfl
@[simp] theorem State.csDeassert_range (s : State) : (s.csDeassert).range = s.range := rfl
@[simp] theorem State.csDeassert_code (s : State) : (s.csDeassert).code = s.code := rfl
@[simp] theorem State.csDeassert_valid (s : State) : (s.csDeassert).valid = s.valid := rfl
@[simp] theorem State.csDeassert_stage (s : State) : (s.csDeassert).stage = s.stage := rfl
@[simp] theorem State.csDeassert_svalid (s : State) : (s.csDeassert).svalid = s.svalid := rfl
@[simp] theorem State.csDeassert_autoArmed (s : State) : (s.csDeassert).autoArmed = s.autoArmed := rfl
@[simp] theorem State.csDeassert_busy (s : State) : (s.csDeassert).busy = s.busy := rfl
@[simp] theorem State.csDeassert_curCw (s : State) : (s.csDeassert).curCw = s.curCw := rfl
@[simp] theorem State.csDeassert_curStatus (s : State) : (s.csDeassert).curStatus = s.curStatus := rfl
@[simp] theorem State.csDeassert_seqK (s : State) : (s.csDeassert).seqK = s.seqK := rfl
@[simp] theorem State.csDeassert_bufLock (s : State) : (s.csDeassert).bufLock = s.bufLock := rfl
@[simp] theorem State.csDeassert_ft (s : State) : (s.csDeassert).ft = { s.ft with cs := .deasserted } := rfl
@[simp] theorem State.csDeassert_straps (s : State) : (s.csDeassert).straps = s.straps := rfl
@[simp] theorem State.csDeassert_cfg (s : State) : (s.csDeassert).cfg = s.cfg := rfl
@[simp] theorem State.csDeassert_pResp (s : State) : (s.csDeassert).pResp = s.pResp := rfl
@[simp] theorem State.csDeassert_cResp (s : State) : (s.csDeassert).cResp = s.cResp := rfl
@[simp] theorem State.csDeassert_ftReply (s : State) : (s.csDeassert).ftReply = s.ftReply := rfl
@[simp] theorem State.csDeassert_hist (s : State) : (s.csDeassert).hist = s.hist ++ [.csDeassert] := rfl
@[simp] theorem State.csDeassert_port (s : State) : (s.csDeassert).port = s.port := rfl
@[simp] theorem State.csDeassert_bench (s : State) : (s.csDeassert).bench = s.bench := rfl
@[simp] theorem State.csDeassert_epoch (s : State) : (s.csDeassert).epoch = s.epoch := rfl
@[simp] theorem State.csDeassert_dev (s : State) : (s.csDeassert).dev = s.dev := rfl
@[simp] theorem State.csDeassert_sched (s : State) : (s.csDeassert).sched = s.sched := rfl
@[simp] theorem State.csDeassert_now (s : State) : (s.csDeassert).now = s.now := rfl
@[simp] theorem State.csDeassert_inbox (s : State) : (s.csDeassert).inbox = s.inbox := rfl
@[simp] theorem State.csDeassert_slots (s : State) : (s.csDeassert).slots = s.slots := rfl
@[simp] theorem State.csDeassert_busIn (s : State) : (s.csDeassert).busIn = s.busIn := rfl
@[simp] theorem State.csDeassert_lineIn (s : State) : (s.csDeassert).lineIn = s.lineIn := rfl

/-! ## `State.devReceives` -/

@[simp] theorem State.devReceives_drvState (s : State) (w : Width) (tx : TxWord) : (s.devReceives w tx).drvState = s.drvState := rfl
@[simp] theorem State.devReceives_range (s : State) (w : Width) (tx : TxWord) : (s.devReceives w tx).range = s.range := rfl
@[simp] theorem State.devReceives_code (s : State) (w : Width) (tx : TxWord) : (s.devReceives w tx).code = s.code := rfl
@[simp] theorem State.devReceives_valid (s : State) (w : Width) (tx : TxWord) : (s.devReceives w tx).valid = s.valid := rfl
@[simp] theorem State.devReceives_stage (s : State) (w : Width) (tx : TxWord) : (s.devReceives w tx).stage = s.stage := rfl
@[simp] theorem State.devReceives_svalid (s : State) (w : Width) (tx : TxWord) : (s.devReceives w tx).svalid = s.svalid := rfl
@[simp] theorem State.devReceives_autoArmed (s : State) (w : Width) (tx : TxWord) : (s.devReceives w tx).autoArmed = s.autoArmed := rfl
@[simp] theorem State.devReceives_busy (s : State) (w : Width) (tx : TxWord) : (s.devReceives w tx).busy = s.busy := rfl
@[simp] theorem State.devReceives_curCw (s : State) (w : Width) (tx : TxWord) : (s.devReceives w tx).curCw = s.curCw := rfl
@[simp] theorem State.devReceives_curStatus (s : State) (w : Width) (tx : TxWord) : (s.devReceives w tx).curStatus = s.curStatus := rfl
@[simp] theorem State.devReceives_seqK (s : State) (w : Width) (tx : TxWord) : (s.devReceives w tx).seqK = s.seqK := rfl
@[simp] theorem State.devReceives_bufLock (s : State) (w : Width) (tx : TxWord) : (s.devReceives w tx).bufLock = s.bufLock := rfl
@[simp] theorem State.devReceives_ft (s : State) (w : Width) (tx : TxWord) : (s.devReceives w tx).ft = s.ft := rfl
@[simp] theorem State.devReceives_straps (s : State) (w : Width) (tx : TxWord) : (s.devReceives w tx).straps = s.straps := rfl
@[simp] theorem State.devReceives_cfg (s : State) (w : Width) (tx : TxWord) : (s.devReceives w tx).cfg = s.cfg := rfl
@[simp] theorem State.devReceives_pResp (s : State) (w : Width) (tx : TxWord) : (s.devReceives w tx).pResp = s.pResp := rfl
@[simp] theorem State.devReceives_cResp (s : State) (w : Width) (tx : TxWord) : (s.devReceives w tx).cResp = s.cResp := rfl
@[simp] theorem State.devReceives_ftReply (s : State) (w : Width) (tx : TxWord) : (s.devReceives w tx).ftReply = s.ftReply := rfl
@[simp] theorem State.devReceives_hist (s : State) (w : Width) (tx : TxWord) : (s.devReceives w tx).hist = s.hist := rfl
@[simp] theorem State.devReceives_port (s : State) (w : Width) (tx : TxWord) : (s.devReceives w tx).port = s.port := rfl
@[simp] theorem State.devReceives_bench (s : State) (w : Width) (tx : TxWord) : (s.devReceives w tx).bench = s.bench := rfl
@[simp] theorem State.devReceives_epoch (s : State) (w : Width) (tx : TxWord) : (s.devReceives w tx).epoch = s.epoch := rfl
@[simp] theorem State.devReceives_dev (s : State) (w : Width) (tx : TxWord) : (s.devReceives w tx).dev = s.dev.receive s.cfg w tx := rfl
@[simp] theorem State.devReceives_sched (s : State) (w : Width) (tx : TxWord) : (s.devReceives w tx).sched = s.sched := rfl
@[simp] theorem State.devReceives_now (s : State) (w : Width) (tx : TxWord) : (s.devReceives w tx).now = s.now := rfl
@[simp] theorem State.devReceives_inbox (s : State) (w : Width) (tx : TxWord) : (s.devReceives w tx).inbox = s.inbox := rfl
@[simp] theorem State.devReceives_slots (s : State) (w : Width) (tx : TxWord) : (s.devReceives w tx).slots = s.slots := rfl
@[simp] theorem State.devReceives_busIn (s : State) (w : Width) (tx : TxWord) : (s.devReceives w tx).busIn = s.busIn := rfl
@[simp] theorem State.devReceives_lineIn (s : State) (w : Width) (tx : TxWord) : (s.devReceives w tx).lineIn = s.lineIn := rfl

/-! ## `State.readNow` -/

@[simp] theorem State.readNow_drvState (s : State) (now : Time) : (s.readNow now).drvState = s.drvState := rfl
@[simp] theorem State.readNow_range (s : State) (now : Time) : (s.readNow now).range = s.range := rfl
@[simp] theorem State.readNow_code (s : State) (now : Time) : (s.readNow now).code = s.code := rfl
@[simp] theorem State.readNow_valid (s : State) (now : Time) : (s.readNow now).valid = s.valid := rfl
@[simp] theorem State.readNow_stage (s : State) (now : Time) : (s.readNow now).stage = s.stage := rfl
@[simp] theorem State.readNow_svalid (s : State) (now : Time) : (s.readNow now).svalid = s.svalid := rfl
@[simp] theorem State.readNow_autoArmed (s : State) (now : Time) : (s.readNow now).autoArmed = s.autoArmed := rfl
@[simp] theorem State.readNow_busy (s : State) (now : Time) : (s.readNow now).busy = s.busy := rfl
@[simp] theorem State.readNow_curCw (s : State) (now : Time) : (s.readNow now).curCw = s.curCw := rfl
@[simp] theorem State.readNow_curStatus (s : State) (now : Time) : (s.readNow now).curStatus = s.curStatus := rfl
@[simp] theorem State.readNow_seqK (s : State) (now : Time) : (s.readNow now).seqK = s.seqK := rfl
@[simp] theorem State.readNow_bufLock (s : State) (now : Time) : (s.readNow now).bufLock = s.bufLock := rfl
@[simp] theorem State.readNow_ft (s : State) (now : Time) : (s.readNow now).ft = s.ft := rfl
@[simp] theorem State.readNow_straps (s : State) (now : Time) : (s.readNow now).straps = s.straps := rfl
@[simp] theorem State.readNow_cfg (s : State) (now : Time) : (s.readNow now).cfg = s.cfg := rfl
@[simp] theorem State.readNow_pResp (s : State) (now : Time) : (s.readNow now).pResp = s.pResp := rfl
@[simp] theorem State.readNow_cResp (s : State) (now : Time) : (s.readNow now).cResp = s.cResp := rfl
@[simp] theorem State.readNow_ftReply (s : State) (now : Time) : (s.readNow now).ftReply = s.ftReply := rfl
@[simp] theorem State.readNow_hist (s : State) (now : Time) : (s.readNow now).hist = s.hist := rfl
@[simp] theorem State.readNow_port (s : State) (now : Time) : (s.readNow now).port = s.port := rfl
@[simp] theorem State.readNow_bench (s : State) (now : Time) : (s.readNow now).bench = s.bench := rfl
@[simp] theorem State.readNow_epoch (s : State) (now : Time) : (s.readNow now).epoch = s.epoch := rfl
@[simp] theorem State.readNow_dev (s : State) (now : Time) : (s.readNow now).dev = s.dev := rfl
@[simp] theorem State.readNow_sched (s : State) (now : Time) : (s.readNow now).sched = s.sched := rfl
@[simp] theorem State.readNow_now (s : State) (now : Time) : (s.readNow now).now = max s.now now := rfl
@[simp] theorem State.readNow_inbox (s : State) (now : Time) : (s.readNow now).inbox = s.inbox := rfl
@[simp] theorem State.readNow_slots (s : State) (now : Time) : (s.readNow now).slots = s.slots := rfl
@[simp] theorem State.readNow_busIn (s : State) (now : Time) : (s.readNow now).busIn = s.busIn := rfl
@[simp] theorem State.readNow_lineIn (s : State) (now : Time) : (s.readNow now).lineIn = s.lineIn := rfl

end Sys2Proof.Machine
end

