-- ==== Sys2Proof/Laws/Ops.lean ====
section
/-! SUPPORT. One lemma for each shared operation that says all it can do: the request of FT, the
micro-step, the run of an operation, port C, SCHED's moves. -/

namespace Sys2Proof.Machine

open Sys2Proof

/-! ## The request of FT (R131 to R136) -/

theorem State.request_waits {s : State} (kind : ReqKind) (w : Width) (tx : TxWord) (h : s.busIn = []) :
    s.request kind w tx = ({ s with ft := s.ft.accept kind w tx }, none) := by
  unfold State.request; rw [h]

theorem State.request_bitwise {s : State} (kind : ReqKind) (w : Width) (tx : TxWord) {b : List BusAnswer}
    (h : s.busIn = .bitwise :: b) :
    s.request kind w tx = ({ s with busIn := b, ft := s.ft.accept kind w tx }, none) := by
  unfold State.request; rw [h]

/-- A frame that BUS completes (R131): the received word is the answer's, DEV has received the frame. -/
theorem State.request_ok {s : State} (kind : ReqKind) (w : Width) (tx : TxWord) {a : BusAnswer}
    {b : List BusAnswer} {rx : BitVec 32} (h : s.busIn = a :: b) (ha : a.word s.dev w = some rx) :
    s.request kind w tx =
      ({ s with
          busIn := b, ft := Ft.afterFrame kind w tx rx w.bits, dev := s.dev.receive s.cfg w (w.trunc tx),
          hist := s.hist ++ [.frame w (w.trunc tx) (.rxOk (w.trunc rx))] },
        some (replyOf kind (.rxOk (w.trunc rx)))) := by
  unfold State.request; rw [h]
  cases a <;> simp only [BusAnswer.word, Option.some.injEq, reduceCtorEq] at ha <;> subst ha <;> rfl

/-- A frame that BUS refuses or faults (R133, R136). -/
theorem State.request_fault {s : State} (kind : ReqKind) (w : Width) (tx : TxWord) {a : BusAnswer}
    {b : List BusAnswer} (h : s.busIn = a :: b) (ha : a.isFault = true) :
    s.request kind w tx =
      ({ s with
          busIn := b, ft := a.ftAfterFault s.ft kind w tx,
          dev := a.devAfterFault s.cfg s.dev w (w.trunc tx),
          hist := s.hist ++ [a.faultEvent w (w.trunc tx)] },
        some (replyOf kind .fault)) := by
  unfold State.request; rw [h]
  cases a with
  | notReady => rfl
  | fault rx bits acts => cases acts <;> rfl
  | answer rx => cases ha
  | device noise => cases ha
  | bitwise => cases ha

/-- Everything an answer of BUS can be. -/
theorem BusAnswer.cases_of (d : Dev) (w : Width) (a : BusAnswer) :
    (∃ rx, a.word d w = some rx) ∨ a.isFault = true ∨ a = .bitwise := by
  cases a <;> simp [BusAnswer.word, BusAnswer.isFault]

/-- Everything a request can do: wait for bits, complete a frame, or fault. -/
theorem State.request_cases (s : State) (kind : ReqKind) (w : Width) (tx : TxWord) :
    (∃ b, (s.busIn = [] ∧ b = [] ∨ s.busIn = .bitwise :: b) ∧
      s.request kind w tx = ({ s with busIn := b, ft := s.ft.accept kind w tx }, none)) ∨
    (∃ a b rx, s.busIn = a :: b ∧ a.word s.dev w = some rx ∧
      s.request kind w tx =
        ({ s with
            busIn := b, ft := Ft.afterFrame kind w tx rx w.bits, dev := s.dev.receive s.cfg w (w.trunc tx),
            hist := s.hist ++ [.frame w (w.trunc tx) (.rxOk (w.trunc rx))] },
          some (replyOf kind (.rxOk (w.trunc rx))))) ∨
    (∃ a b, s.busIn = a :: b ∧ a.isFault = true ∧
      s.request kind w tx =
        ({ s with
            busIn := b, ft := a.ftAfterFault s.ft kind w tx,
            dev := a.devAfterFault s.cfg s.dev w (w.trunc tx),
            hist := s.hist ++ [a.faultEvent w (w.trunc tx)] },
          some (replyOf kind .fault))) := by
  cases hb : s.busIn with
  | nil =>
    refine .inl ⟨[], .inl ⟨rfl, rfl⟩, ?_⟩
    rw [State.request_waits kind w tx hb, ← hb]
  | cons a b =>
    rcases BusAnswer.cases_of s.dev w a with ⟨rx, hr⟩ | hf | rfl
    · exact .inr (.inl ⟨a, b, rx, rfl, hr, State.request_ok kind w tx hb hr⟩)
    · exact .inr (.inr ⟨a, b, rfl, hf, State.request_fault kind w tx hb hf⟩)
    · exact .inl ⟨b, .inr rfl, State.request_bitwise kind w tx hb⟩

/-- A bench's request that BUS answers: the reply is presented, the engine is the bench's no more. -/
theorem State.benchRequest_ok {s : State} (kind : ReqKind) (w : Width) (tx : TxWord) {a : BusAnswer}
    {b : List BusAnswer} {rx : BitVec 32} (h : s.busIn = a :: b) (ha : a.word s.dev w = some rx) :
    s.benchRequest kind w tx =
      { s with
        busIn := b, ft := Ft.afterFrame kind w tx rx w.bits, dev := s.dev.receive s.cfg w (w.trunc tx),
        hist := s.hist ++ [.frame w (w.trunc tx) (.rxOk (w.trunc rx))],
        ftReply := some (replyOf kind (.rxOk (w.trunc rx))), bench := false } := by
  simp only [State.benchRequest, State.request_ok kind w tx h ha]

theorem State.benchRequest_fault {s : State} (kind : ReqKind) (w : Width) (tx : TxWord) {a : BusAnswer}
    {b : List BusAnswer} (h : s.busIn = a :: b) (ha : a.isFault = true) :
    s.benchRequest kind w tx =
      { s with
        busIn := b, ft := a.ftAfterFault s.ft kind w tx,
        dev := a.devAfterFault s.cfg s.dev w (w.trunc tx),
        hist := s.hist ++ [a.faultEvent w (w.trunc tx)],
        ftReply := some ⟨.busFault, 0⟩, bench := false } := by
  simp only [State.benchRequest, State.request_fault kind w tx h ha, replyOf]

theorem State.benchRequest_bitwise {s : State} (kind : ReqKind) (w : Width) (tx : TxWord) {b : List BusAnswer}
    (h : s.busIn = .bitwise :: b) :
    s.benchRequest kind w tx = { s with busIn := b, ft := s.ft.accept kind w tx, busy := true, bench := true } := by
  simp only [State.benchRequest, State.request_bitwise kind w tx h]

theorem State.benchRequest_waits {s : State} (kind : ReqKind) (w : Width) (tx : TxWord) (h : s.busIn = []) :
    s.benchRequest kind w tx = { s with ft := s.ft.accept kind w tx, busy := true, bench := true } := by
  simp only [State.benchRequest, State.request_waits kind w tx h]

/-! ## Running an operation (R30, R162) -/

@[simp] theorem SeqOp.run_zero (op : SeqOp) (s : State) : op.run 0 s = s := rfl

/-- The operation goes on while SEQ is busy and FT idle. -/
theorem SeqOp.run_active (op : SeqOp) (n : Nat) {s : State} (hb : s.busy = true) (hi : s.ft.state = .idle) :
    op.run (n + 1) s = op.run n (s.tick op.micro) := by
  rw [SeqOp.run, if_pos ⟨hb, hi⟩]

/-- It stops at its response, or when it waits for FT. -/
theorem SeqOp.run_stopped (op : SeqOp) (n : Nat) {s : State} (h : ¬(s.busy = true ∧ s.ft.state = .idle)) :
    op.run n s = s := by
  cases n with
  | zero => rfl
  | succ n => rw [SeqOp.run, if_neg h]

theorem SeqOp.exec_P (op : SeqOp) (i : Instr) {s : State} (h : s.port = .P) :
    op.exec i s = .next (op.run seqFuel (s.acceptP (hostWordOf i))) := by
  unfold SeqOp.exec; rw [h]

theorem SeqOp.exec_C (op : SeqOp) (i : Instr) {s : State} (h : s.port = .C) :
    op.exec i s = .next (s.refuseC (hostWordOf i)) := by
  unfold SeqOp.exec; rw [h]

/-- An operation never stops the machine. -/
theorem SeqOp.exec_next (op : SeqOp) (i : Instr) (s : State) : ∃ t, op.exec i s = .next t := by
  unfold SeqOp.exec; cases s.port <;> exact ⟨_, rfl⟩

/-- Whatever every tick of an operation keeps, the run keeps. -/
theorem SeqOp.run_keeps (op : SeqOp) {P : State → Prop}
    (h : ∀ s, P s → s.busy = true → s.ft.state = .idle → P (s.tick op.micro)) :
    ∀ (n : Nat) (s : State), P s → P (op.run n s)
  | 0, _, hs => hs
  | n + 1, s, hs => by
    rw [SeqOp.run]
    split
    · rename_i hc; exact SeqOp.run_keeps op h n _ (h s hs hc.1 hc.2)
    · exact hs

/-! ## Port C beside an operation (R79, R80) -/

theorem State.tick_nil {s : State} (f : State → State) (h : s.slots = []) : s.tick f = f s := by
  unfold State.tick; rw [h]

/-- Everything a tick can do. -/
theorem State.tick_cases (s : State) (f : State → State) :
    (s.slots = [] ∧ s.tick f = f s) ∨
    (∃ l, s.slots = .quiet :: l ∧ s.tick f = f { s with slots := l }) ∨
    (∃ cws l, s.slots = .before cws :: l ∧ s.tick f = f ({ s with slots := l }.serveAll cws)) ∨
    (∃ cws l, s.slots = .after cws :: l ∧ s.tick f = (f { s with slots := l }).serveAll cws) ∨
    (∃ k l, s.slots = .rst k :: l ∧ s.tick f = { s with slots := l }.hwReset k) := by
  unfold State.tick
  cases h : s.slots with
  | nil => exact .inl ⟨rfl, rfl⟩
  | cons x l =>
    cases x with
    | quiet => exact .inr (.inl ⟨l, rfl, rfl⟩)
    | before cws => exact .inr (.inr (.inl ⟨cws, l, rfl, rfl⟩))
    | after cws => exact .inr (.inr (.inr (.inl ⟨cws, l, rfl, rfl⟩)))
    | rst k => exact .inr (.inr (.inr (.inr ⟨k, l, rfl, rfl⟩)))

@[simp] theorem State.serveAll_nil (s : State) : s.serveAll [] = s := rfl

@[simp] theorem State.serveAll_cons (s : State) (cw : HostWord) (cws : List HostWord) :
    s.serveAll (cw :: cws) = (s.serveC cw).serveAll cws := rfl

/-- All a word of port C can change: its response, its two or three events, the lock back to Free. -/
theorem State.serveC_frame (s : State) (cw : HostWord) :
    ∃ r evs, (∀ e ∈ evs, e.ownerSees = false) ∧
      (s.serveC cw = { s with cResp := some r, hist := s.hist ++ evs } ∨
        s.serveC cw = { s with cResp := some r, bufLock := .free, hist := s.hist ++ evs }) := by
  have hrefuse : s.refuseC cw = { s with
      cResp := some (Response.error .invalidArgument),
      hist := s.hist ++ [.op .C cw, .resp .C (Response.error .invalidArgument)] } := by
    simp only [State.refuseC, State.respondC, State.emit, List.append_assoc, List.cons_append, List.nil_append]
  unfold State.serveC
  split
  · refine ⟨Response.okWith s.valid (packLanes s.lanes),
      [.op .C cw, .snapshot .C s.lanes s.valid, .resp .C (Response.okWith s.valid (packLanes s.lanes))],
      by simp [Event.ownerSees], .inr ?_⟩
    simp only [State.getCodesC, State.snapshot, State.respondC, State.emit, State.lanes, List.append_assoc,
      List.cons_append, List.nil_append]
    rfl
  · rename_i code rg _
    refine ⟨voltageResponse s.straps.coding code rg,
      [.op .C cw, .resp .C (voltageResponse s.straps.coding code rg)], by simp [Event.ownerSees], .inl ?_⟩
    simp only [State.toVoltageC, State.respondC, State.emit, List.append_assoc, List.cons_append, List.nil_append]
  · exact ⟨_, _, by simp [Event.ownerSees], .inl hrefuse⟩

/-- All that any number of words of port C can change. -/
theorem State.serveAll_frame (cws : List HostWord) (s : State) :
    ∃ r evs lock, (∀ e ∈ evs, e.ownerSees = false) ∧ (lock = s.bufLock ∨ lock = .free) ∧
      s.serveAll cws = { s with cResp := r, bufLock := lock, hist := s.hist ++ evs } := by
  induction cws generalizing s with
  | nil => exact ⟨s.cResp, [], s.bufLock, by simp, .inl rfl, by simp⟩
  | cons cw cws ih =>
    obtain ⟨r, evs, he, h⟩ := s.serveC_frame cw
    obtain ⟨r', evs', lock, he', hl, h'⟩ := ih (s.serveC cw)
    refine ⟨r', evs ++ evs', lock, by simpa [or_imp, forall_and] using ⟨he, he'⟩, ?_, ?_⟩
    · rcases hl with hl | hl
      · rcases h with h | h <;> rw [h] at hl
        · exact .inl hl
        · exact .inr hl
      · exact .inr hl
    · rw [State.serveAll_cons, h']
      rcases h with h | h <;> rw [h] <;> simp

/-! ## While an operation or a frame is in progress (R20) -/

/-- All that the resumption of SEQ can do. -/
theorem State.resume_cases (s : State) :
    (s.busy = true ∧ s.bench = false ∧ ∃ op, s.currentOp = some op ∧ s.resume = .next (op.run seqFuel s)) ∨
    (s.busy = true ∧ s.bench = false ∧ s.currentOp = none ∧ s.resume = .fault .noSuchStep) ∨
    (¬(s.busy = true ∧ s.bench = false) ∧ s.resume = .next s) := by
  unfold State.resume
  split
  · rename_i h
    cases ho : s.currentOp with
    | some op => exact .inl ⟨h.1, h.2, op, rfl, rfl⟩
    | none => exact .inr (.inl ⟨h.1, h.2, rfl, rfl⟩)
  · rename_i h; exact .inr (.inr ⟨h, rfl⟩)

/-- All that a step of the settle count can do. -/
theorem State.settleStep_cases (s : State) :
    (1 < s.ft.settleCnt ∧ s.settleStep = .next (s.tick State.settleTick)) ∨
    (s.ft.settleCnt ≤ 1 ∧ (s.bench = true ∨ s.currentOp.isSome = true) ∧
      s.settleStep = (s.tick State.finishFrame).resume) ∨
    (s.ft.settleCnt ≤ 1 ∧ s.bench = false ∧ s.currentOp = none ∧ s.settleStep = .fault .noSuchStep) := by
  unfold State.settleStep
  split
  · rename_i h
    split
    · rename_i hb; exact .inr (.inl ⟨h, hb, rfl⟩)
    · rename_i hb
      simp only [not_or, Bool.not_eq_true, Option.isSome_eq_false_iff, Option.isNone_iff_eq_none] at hb
      exact .inr (.inr ⟨h, hb.1, hb.2, rfl⟩)
  · rename_i h; exact .inl ⟨Nat.lt_of_not_le h, rfl⟩

/-- All that FT's reply can do. -/
theorem State.takeReply_cases (s : State) (r : FtReply) :
    (s.bench = true ∧ s.takeReply r = { s with busy := false, bench := false, ftReply := some r }) ∨
    (s.bench = false ∧ ∃ op, s.currentOp = some op ∧ s.takeReply r = op.reply s.seqK r s) ∨
    (s.bench = false ∧ s.currentOp = none ∧ s.takeReply r = s) := by
  unfold State.takeReply
  split
  · rename_i h; exact .inl ⟨h, rfl⟩
  · rename_i h
    have hb : s.bench = false := by simpa using h
    cases ho : s.currentOp with
    | some op => exact .inr (.inl ⟨hb, op, rfl, rfl⟩)
    | none => exact .inr (.inr ⟨hb, rfl, rfl⟩)

/-! ## TMR and SCHED (R280 to R289, R322) -/

/-- TMR never goes back, whatever it is asked. -/
theorem State.readNow_le (s : State) (now : Time) : s.now ≤ (s.readNow now).now := le_max_left _ _

theorem State.sleepUntil_le (s : State) (t wake : Time) :
    s.now ≤ (s.sleepUntil t wake).now ∧ t ≤ (s.sleepUntil t wake).now :=
  ⟨le_max_left _ _, (le_max_left _ _).trans (le_max_right _ _)⟩

theorem State.sleepMicros_le (s : State) (n : Nat) (wake : Time) : s.now + n ≤ (s.sleepMicros n wake).now :=
  (s.sleepUntil_le _ _).2

theorem schedStart_ready (now : Time) {s : State} (h : s.drvState = .ready) :
    schedStart now s =
      { s.readNow now with
        sched := { s.sched with started := true, deadline := max s.now now, missed := 0 } } := if_pos h

theorem schedStart_notReady (now : Time) {s : State} (h : s.drvState ≠ .ready) : schedStart now s = s := if_neg h

theorem schedFinish_notStarted (now wake : Time) {s : State} (h : s.sched.started = false) :
    schedFinish now wake s = s := if_neg (by simp [h])

theorem schedFinish_inTime (now wake : Time) {s : State} (hs : s.sched.started = true)
    (h : 0 < s.sched.deadline + s.period - max s.now now) :
    schedFinish now wake s =
      { (s.readNow now).sleepUntil (s.sched.deadline + s.period) wake with
        sched := { s.sched with deadline := s.sched.deadline + s.period } } :=
  (if_pos hs).trans (if_pos h)

theorem schedFinish_missed (now wake : Time) {s : State} (hs : s.sched.started = true)
    (h : s.sched.deadline + s.period - max s.now now ≤ 0) :
    schedFinish now wake s =
      { s.readNow now with sched := { s.sched with
          deadline := max s.now now
          missed := s.sched.missed + 1
          reports := s.sched.reports ++ [.deadlineMissed (-(s.sched.deadline + s.period - max s.now now))] } } :=
  (if_pos hs).trans (if_neg (not_lt.mpr h))

end Sys2Proof.Machine
end

