-- ==== Sys2Proof/Laws/Frames.lean ====
section
/-! SUPPORT. Frames, operands and flags: the lemmas of the small functions the statements use. -/

namespace Sys2Proof

/-! ## Widths and frames -/

@[simp] theorem Width.bits_w16 : Width.w16.bits = 16 := rfl
@[simp] theorem Width.bits_w24 : Width.w24.bits = 24 := rfl
@[simp] theorem Width.bits_w32 : Width.w32.bits = 32 := rfl

theorem Width.bits_pos (w : Width) : 0 < w.bits := by cases w <;> decide
theorem Width.bits_le (w : Width) : w.bits ≤ 32 := by cases w <;> decide

theorem Width.trunc_toNat (w : Width) (x : BitVec 32) : (w.trunc x).toNat = x.toNat % 2 ^ w.bits := by
  have hw := w.bits_le
  have h1 : x.toNat % 2 ^ w.bits < 2 ^ 32 :=
    lt_of_lt_of_le (Nat.mod_lt _ (Nat.two_pow_pos _)) (Nat.pow_le_pow_right (by decide) hw)
  simp only [Width.trunc, BitVec.toNat_setWidth]
  exact Nat.mod_eq_of_lt h1

@[simp] theorem Width.trunc_trunc (w : Width) (x : BitVec 32) : w.trunc (w.trunc x) = w.trunc x := by
  apply BitVec.eq_of_toNat_eq
  simp only [Width.trunc_toNat, Nat.mod_mod]

@[simp] theorem Width.trunc_w32 (x : BitVec 32) : Width.w32.trunc x = x := by
  apply BitVec.eq_of_toNat_eq
  rw [Width.trunc_toNat]
  exact Nat.mod_eq_of_lt x.isLt

theorem Width.trunc_getLsbD (w : Width) (x : BitVec 32) (i : Nat) :
    (w.trunc x).getLsbD i = (decide (i < w.bits) && x.getLsbD i) := by
  have hw := w.bits_le
  simp only [Width.trunc, BitVec.getLsbD_setWidth]
  by_cases h : i < w.bits
  · have : i < 32 := by omega
    simp [h, this]
  · simp [h]

@[simp] theorem Width.trunc_regFrame (a : BitVec 7) (v : Byte) : Width.w24.trunc (regFrame a v) = regFrame a v := by
  apply BitVec.eq_of_getLsbD_eq
  intro i hi
  rw [Width.trunc_getLsbD]
  by_cases h : i < 24
  · simp [h]
  · have : (regFrame a v).getLsbD i = false := by
      simp only [regFrame, BitVec.getLsbD_append]
      split <;> [omega; skip]
      split <;> [omega; skip]
      split <;> [omega; skip]
      split <;> [omega; simp]
    simp [h, this]

/-- The command of a command frame (R108). -/
@[simp] theorem cmdFrame_command (cmd : BitVec 16) : (cmdFrame cmd).extractLsb' 16 16 = cmd := by
  apply BitVec.eq_of_getLsbD_eq
  intro i hi
  simp only [cmdFrame, BitVec.getLsbD_extractLsb', BitVec.getLsbD_append]
  simp [hi]

@[simp] theorem cmdFrame_low (cmd : BitVec 16) : (cmdFrame cmd).extractLsb' 0 16 = (0 : BitVec 16) := by
  apply BitVec.eq_of_getLsbD_eq
  intro i hi
  simp only [cmdFrame, BitVec.getLsbD_extractLsb', BitVec.getLsbD_append]
  simp [hi]

/-- The address of a register frame (R109). -/
@[simp] theorem regFrame_address (a : BitVec 7) (v : Byte) : (regFrame a v).extractLsb' 17 7 = a := by
  apply BitVec.eq_of_getLsbD_eq
  intro i hi
  simp only [regFrame, BitVec.getLsbD_extractLsb', BitVec.getLsbD_append]
  interval_cases i <;> simp

/-- The write flag of a register frame (R109). -/
@[simp] theorem regFrame_writeFlag (a : BitVec 7) (v : Byte) :
    (regFrame a v).extractLsb' 16 1 = (1 : BitVec 1) := by
  apply BitVec.eq_of_getLsbD_eq
  intro i hi
  simp only [regFrame, BitVec.getLsbD_extractLsb', BitVec.getLsbD_append]
  interval_cases i; simp

/-- The value of a register frame (R109). -/
@[simp] theorem regFrame_value (a : BitVec 7) (v : Byte) : (regFrame a v).extractLsb' 8 8 = v := by
  apply BitVec.eq_of_getLsbD_eq
  intro i hi
  simp only [regFrame, BitVec.getLsbD_extractLsb', BitVec.getLsbD_append]
  interval_cases i <;> simp

@[simp] theorem regFrame_low (a : BitVec 7) (v : Byte) : (regFrame a v).extractLsb' 0 8 = (0 : BitVec 8) := by
  apply BitVec.eq_of_getLsbD_eq
  intro i hi
  simp only [regFrame, BitVec.getLsbD_extractLsb', BitVec.getLsbD_append]
  interval_cases i <;> simp

@[simp] theorem regFrame_high (a : BitVec 7) (v : Byte) : (regFrame a v).extractLsb' 24 8 = (0 : BitVec 8) := by
  apply BitVec.eq_of_getLsbD_eq
  intro i hi
  simp only [regFrame, BitVec.getLsbD_extractLsb', BitVec.getLsbD_append]
  interval_cases i <;> simp

/-! ## Addresses (R11, R61) -/

/-- The range register's address is an integer sum that does not overflow (R61). -/
theorem Config.rangeReg_toNat (c : Config) (n : Chan) (h : c.regRangeBase.toNat + 7 ≤ 0x7F) :
    (c.rangeReg n).toNat = c.regRangeBase.toNat + n.val := by
  have hn : n.val < 8 := n.isLt
  simp only [Config.rangeReg, BitVec.toNat_add, BitVec.toNat_ofNat]
  omega

/-- The range registers of two channels differ (R70). -/
theorem Config.rangeReg_injective (c : Config) (h : c.regRangeBase.toNat + 7 ≤ 0x7F) {m n : Chan}
    (hmn : c.rangeReg m = c.rangeReg n) : m = n := by
  have := congrArg BitVec.toNat hmn
  rw [c.rangeReg_toNat m h, c.rangeReg_toNat n h] at this
  exact Fin.ext (by omega)

namespace Machine

/-! ## Operands -/

theorem chan?_some {ch : Byte} {c : Chan} (h : ch.toNat = c.val) : chan? ch = some c := by
  have hc : ch.toNat < 8 := h ▸ c.isLt
  simp only [chan?, dif_pos hc, Option.some.injEq]
  exact Fin.ext h

theorem chan?_none {ch : Byte} (h : 7 < ch.toNat) : chan? ch = none := by
  have hc : ¬ch.toNat < 8 := by omega
  simp only [chan?, dif_neg hc]

/-! ## Flag words -/

theorem oneHot_getLsbD : ∀ c d : Chan, ((1 : BitVec 8) <<< c.val).getLsbD d.val = decide (c = d) := by decide

theorem flag_setFlag (v : BitVec 8) (c d : Chan) : flag (setFlag v c) d = (flag v d || decide (c = d)) := by
  simp only [flag, setFlag, BitVec.getLsbD_or, oneHot_getLsbD]

theorem flag_clearFlag (v : BitVec 8) (c d : Chan) : flag (clearFlag v c) d = (flag v d && !decide (c = d)) := by
  have hd : d.val < 8 := d.isLt
  simp only [flag, clearFlag, BitVec.getLsbD_and, BitVec.getLsbD_not, oneHot_getLsbD, hd, decide_true,
    Bool.true_and]

/-- Two flag words with the same flags are equal. -/
theorem flag_ext {v w : BitVec 8} (h : ∀ c : Chan, flag v c = flag w c) : v = w :=
  BitVec.eq_of_getLsbD_eq fun i hi => h ⟨i, hi⟩

theorem setFlag_clearFlag (v : BitVec 8) (c : Chan) : setFlag (clearFlag v c) c = setFlag v c := by
  apply flag_ext
  intro d
  simp only [flag_setFlag, flag_clearFlag]
  by_cases h : c = d <;> simp [h]

/-- What DEV returns on a command frame while a conversion is pending (R251). -/
theorem Dev.returns_pending {d : Dev} {code : Code} (noise : BitVec 32) (h : d.pending = some code) :
    (d.returns .w32 noise).extractLsb' 0 16 = code := by
  simp only [Dev.returns, h]
  apply BitVec.eq_of_getLsbD_eq
  intro i hi
  simp only [BitVec.getLsbD_extractLsb', BitVec.getLsbD_append]
  simp [hi]

end Machine

end Sys2Proof
end

