-- ==== Sys2Proof/Laws/Owner.lean ====
section
/-! SUPPORT. What port C leaves is invisible to the owner (R38, R74, R79): every operation of SEQ
commutes with the owner's view, and so does its run. -/

namespace Sys2Proof.Machine

open Sys2Proof

/-! ## The view of each update -/

@[simp] theorem State.ownerView_ownerView (s : State) : s.ownerView.ownerView = s.ownerView := by
  simp only [State.ownerView, List.filter_filter, Bool.and_self]

@[simp] theorem State.ownerView_slots (s : State) : s.ownerView.slots = [] := rfl
@[simp] theorem State.ownerView_busy (s : State) : s.ownerView.busy = s.busy := rfl
@[simp] theorem State.ownerView_ft (s : State) : s.ownerView.ft = s.ft := rfl
@[simp] theorem State.ownerView_seqK (s : State) : s.ownerView.seqK = s.seqK := rfl
@[simp] theorem State.ownerView_cfg (s : State) : s.ownerView.cfg = s.cfg := rfl
@[simp] theorem State.ownerView_straps (s : State) : s.ownerView.straps = s.straps := rfl
@[simp] theorem State.ownerView_drvState (s : State) : s.ownerView.drvState = s.drvState := rfl
@[simp] theorem State.ownerView_busIn (s : State) : s.ownerView.busIn = s.busIn := rfl
@[simp] theorem State.ownerView_dev (s : State) : s.ownerView.dev = s.dev := rfl
@[simp] theorem State.ownerView_port (s : State) : s.ownerView.port = s.port := rfl
@[simp] theorem State.ownerView_bufLock (s : State) : s.ownerView.bufLock = s.bufLock := rfl
@[simp] theorem State.ownerView_range (s : State) : s.ownerView.range = s.range := rfl
@[simp] theorem State.ownerView_stage (s : State) : s.ownerView.stage = s.stage := rfl
@[simp] theorem State.ownerView_svalid (s : State) : s.ownerView.svalid = s.svalid := rfl
@[simp] theorem State.ownerView_autoArmed (s : State) : s.ownerView.autoArmed = s.autoArmed := rfl

@[simp] theorem State.clear_slots_ownerView (s : State) (l : List Slot) :
    ({ s with slots := l } : State).ownerView = s.ownerView := rfl

theorem ownerView_ite {p : Prop} [Decidable p] {a b a' b' : State} (ha : a.ownerView = a') (hb : b.ownerView = b') :
    (if p then a else b).ownerView = if p then a' else b' := by
  split
  · exact ha
  · exact hb

/-- An event the owner sees joins its view of the history. -/
theorem State.emit_ownerView (s : State) {e : Event} (h : e.ownerSees = true) :
    (s.emit e).ownerView = s.ownerView.emit e := by
  simp only [State.ownerView, State.emit, List.filter_append, List.filter_cons, h, if_true, List.filter_nil]

/-- An event of port C does not. -/
theorem State.emit_hidden (s : State) {e : Event} (h : e.ownerSees = false) :
    (s.emit e).ownerView = s.ownerView := by
  simp only [State.ownerView, State.emit, List.filter_append, List.filter_cons, h, Bool.false_eq_true,
    if_false, List.filter_nil, List.append_nil]

/-- A word of port C leaves the owner's view as it was, where the lock is free (R47 f). -/
theorem State.serveC_ownerView (s : State) (cw : HostWord) (h : s.bufLock = .free) :
    (s.serveC cw).ownerView = s.ownerView := by
  obtain ⟨r, evs, hevs, ht | ht⟩ := s.serveC_frame cw
  all_goals
    have hf : evs.filter Event.ownerSees = [] :=
      List.filter_eq_nil_iff.mpr fun e he => by simp [hevs e he]
    rw [ht]
    simp only [State.ownerView, List.filter_append, hf, List.append_nil, ← h]

theorem State.serveC_bufLock (s : State) (cw : HostWord) (h : s.bufLock = .free) :
    (s.serveC cw).bufLock = .free := by
  obtain ⟨r, evs, _, ht | ht⟩ := s.serveC_frame cw <;> rw [ht]
  exact h

/-- What port C adds to the history (R38). -/
theorem State.serveC_hist (s : State) (cw : HostWord) : (s.serveC cw).hist = s.hist ++ s.answersC cw := by
  unfold State.serveC State.answersC
  split <;> simp_all [State.getCodesC, State.toVoltageC, State.refuseC, State.snapshot, State.respondC, State.emit]
  exact ⟨rfl, rfl⟩

/-- An answered word changes no later answer: "a snapshot step touches neither SEQ nor FT" (R79). -/
theorem State.serveC_answersC (s : State) (cw : HostWord) : (s.serveC cw).answersC = s.answersC := by
  obtain ⟨r, evs, _, h | h⟩ := s.serveC_frame cw <;> rw [h] <;> rfl

theorem State.serveAll_hist (cws : List HostWord) (s : State) :
    (s.serveAll cws).hist = s.hist ++ cws.flatMap s.answersC := by
  induction cws generalizing s with
  | nil => simp
  | cons cw cws ih => simp [ih, State.serveC_hist, State.serveC_answersC]

theorem State.serveAll_bufLock (cws : List HostWord) {s : State} (h : s.bufLock = .free) :
    (s.serveAll cws).bufLock = .free := by
  induction cws generalizing s with
  | nil => exact h
  | cons cw cws ih => exact ih (s.serveC_bufLock cw h)

/-- Nor does any number of them. -/
theorem State.serveAll_ownerView (cws : List HostWord) {s : State} (h : s.bufLock = .free) :
    (s.serveAll cws).ownerView = s.ownerView := by
  induction cws generalizing s with
  | nil => rfl
  | cons cw cws ih => exact (ih (s.serveC_bufLock cw h)).trans (s.serveC_ownerView cw h)

theorem State.respondP_ownerView (s : State) (r : Response) :
    (s.respondP r).ownerView = s.ownerView.respondP r := State.emit_ownerView _ rfl

theorem State.raise_ownerView (s : State) (st : Status) : (s.raise st).ownerView = s.ownerView.raise st :=
  State.respondP_ownerView _ _

theorem State.raiseConfigFault_ownerView (s : State) :
    s.raiseConfigFault.ownerView = s.ownerView.raiseConfigFault := State.raise_ownerView _ _

theorem State.acceptP_ownerView (s : State) (cw : HostWord) :
    (s.acceptP cw).ownerView = s.ownerView.acceptP cw := State.emit_ownerView _ rfl

theorem State.commit_ownerView (s : State) (code : Vector Code 8) (valid : BitVec 8) :
    (s.commit code valid).ownerView = s.ownerView.commit code valid := State.emit_ownerView _ rfl

theorem State.request_ownerView (s : State) (kind : ReqKind) (w : Width) (tx : TxWord) :
    s.ownerView.request kind w tx = ((s.request kind w tx).1.ownerView, (s.request kind w tx).2) := by
  have hv : s.ownerView.busIn = s.busIn := rfl
  cases hb : s.busIn with
  | nil => rw [State.request_waits kind w tx (hv.trans hb), State.request_waits kind w tx hb]; rfl
  | cons a b =>
    rcases BusAnswer.cases_of s.dev w a with ⟨rx, hr⟩ | hf | rfl
    · rw [State.request_ok kind w tx (hv.trans hb) hr, State.request_ok kind w tx hb hr]
      simp only [State.ownerView, List.filter_append]
      rfl
    · rw [State.request_fault kind w tx (hv.trans hb) hf, State.request_fault kind w tx hb hf]
      have he : (a.faultEvent w (w.trunc tx)).ownerSees = true := by cases a <;> rfl
      simp only [State.ownerView, List.filter_append, List.filter_cons, he, if_true, List.filter_nil]
    · rw [State.request_bitwise kind w tx (hv.trans hb), State.request_bitwise kind w tx hb]; rfl

/-! ## Operations that do not see port C -/

/-- An operation whose steps commute with the owner's view. -/
structure SeqOp.Blind (op : SeqOp) : Prop where
  step : ∀ k s, op.step k s.ownerView = ((op.step k s).1.ownerView, (op.step k s).2)
  reply : ∀ k r s, (op.reply k r s).ownerView = op.reply k r s.ownerView

theorem SeqOp.Blind.micro {op : SeqOp} (h : op.Blind) (s : State) :
    (op.micro s).ownerView = op.micro s.ownerView := by
  have hs := h.step s.seqK s
  unfold SeqOp.micro
  rw [State.ownerView_seqK, hs]
  cases hst : op.step s.seqK s with
  | mk t o =>
    cases o with
    | none => rfl
    | some r => exact h.reply _ _ _

/-- The micro-steps keep the lock free between steps. -/
def SeqOp.KeepsLock (op : SeqOp) : Prop :=
  ∀ s : State, s.bufLock = .free → (op.micro s).bufLock = .free

/-- A tick where no hardware reset is due, seen by the owner: the words of port C do not matter. -/
theorem State.tick_ownerView {f : State → State} (hf : ∀ s, (f s).ownerView = f s.ownerView)
    (hl : ∀ s, s.bufLock = .free → (f s).bufLock = .free) {s : State} (hs : s.bufLock = .free) (hr : s.NoRst) :
    (s.tick f).ownerView = f s.ownerView ∧ (s.tick f).bufLock = .free := by
  rcases s.tick_cases f with ⟨_, ht⟩ | ⟨l, _, ht⟩ | ⟨cws, l, _, ht⟩ | ⟨cws, l, _, ht⟩ | ⟨k, l, hk, _⟩
  · rw [ht]; exact ⟨hf _, hl _ hs⟩
  · rw [ht]; exact ⟨hf _, hl _ hs⟩
  · have hv : (({ s with slots := l } : State).serveAll cws).ownerView = s.ownerView :=
      State.serveAll_ownerView cws hs
    rw [ht, hf, hv]
    exact ⟨rfl, hl _ (State.serveAll_bufLock cws hs)⟩
  · have hk : (f { s with slots := l }).bufLock = .free := hl _ hs
    rw [ht, State.serveAll_ownerView cws hk, hf]
    exact ⟨rfl, State.serveAll_bufLock cws hk⟩
  · exact absurd (hk ▸ List.mem_cons_self) (hr k)

/-- The slots only get fewer. -/
theorem State.serveAll_slots (cws : List HostWord) (s : State) : (s.serveAll cws).slots = s.slots := by
  obtain ⟨r, evs, lock, _, _, h⟩ := State.serveAll_frame cws s
  rw [h]

theorem State.tick_noRst {f : State → State} (hf : ∀ s, (f s).slots = s.slots) {s : State} (hr : s.NoRst) :
    (s.tick f).NoRst := by
  have hl : ∀ {x : Slot} {l : List Slot}, s.slots = x :: l → ∀ k, Slot.rst k ∉ l := fun h k hk =>
    hr k (h ▸ List.mem_cons_of_mem _ hk)
  rcases s.tick_cases f with ⟨_, ht⟩ | ⟨l, h, ht⟩ | ⟨cws, l, h, ht⟩ | ⟨cws, l, h, ht⟩ | ⟨k, l, h, ht⟩ <;>
    intro k' hk <;> rw [ht] at hk
  · rw [hf] at hk; exact hr k' hk
  · rw [hf] at hk; exact hl h k' hk
  · rw [hf, State.serveAll_slots] at hk; exact hl h k' hk
  · rw [State.serveAll_slots, hf] at hk; exact hl h k' hk
  · exact hl h k' hk

/-- The micro-steps leave the slots to the tick. -/
def SeqOp.KeepsSlots (op : SeqOp) : Prop := ∀ s : State, (op.micro s).slots = s.slots

/-- The run of a blind operation where no hardware reset is due, seen by the owner, is the run without
port C. -/
theorem SeqOp.Blind.run {op : SeqOp} (h : op.Blind) (hl : op.KeepsLock) (hk : op.KeepsSlots) :
    ∀ (n : Nat) (s : State), s.bufLock = .free → s.NoRst →
      (op.run n s).ownerView = (op.run n s.ownerView).ownerView
  | 0, s, _, _ => (State.ownerView_ownerView s).symm
  | n + 1, s, hs, hr => by
    by_cases hc : s.busy = true ∧ s.ft.state = .idle
    · obtain ⟨ht, htl⟩ := State.tick_ownerView h.micro hl hs hr
      have hv : s.ownerView.tick op.micro = op.micro s.ownerView := State.tick_nil _ rfl
      rw [SeqOp.run_active op n hc.1 hc.2, SeqOp.run_active op n (s := s.ownerView) hc.1 hc.2,
        SeqOp.Blind.run h hl hk n _ htl (State.tick_noRst hk hr), ht, hv]
    · rw [SeqOp.run_stopped op _ hc, SeqOp.run_stopped op _ (s := s.ownerView) hc, State.ownerView_ownerView]

/-! ## The operations of 41, 42 and 43 -/

/-- A step without a frame commutes where its state does. -/
theorem noFrame_ownerView {s t : State} (h : t.ownerView = s) : noFrame s = ((noFrame t).1.ownerView, (noFrame t).2) := by
  rw [← h]; rfl

theorem State.regWrite_ownerView (s : State) (a : BitVec 7) (v : Byte) :
    s.ownerView.regWrite a v = ((s.regWrite a v).1.ownerView, (s.regWrite a v).2) := s.request_ownerView _ _ _

theorem State.command_ownerView (s : State) (cmd : BitVec 16) :
    s.ownerView.command cmd = ((s.command cmd).1.ownerView, (s.command cmd).2) := s.request_ownerView _ _ _

theorem State.request_bufLock (s : State) (kind : ReqKind) (w : Width) (tx : TxWord) :
    (s.request kind w tx).1.bufLock = s.bufLock := by
  rcases s.request_cases kind w tx with ⟨b, _, h⟩ | ⟨a, b, rx, _, _, h⟩ | ⟨a, b, _, _, h⟩ <;> rw [h]

/-- A micro-step keeps the lock free where its step and its reply do. -/
theorem SeqOp.keepsLock_of {op : SeqOp} (hs : ∀ k s, s.bufLock = .free → (op.step k s).1.bufLock = .free)
    (hr : ∀ k r s, s.bufLock = .free → (op.reply k r s).bufLock = .free) : op.KeepsLock := by
  intro s h
  have h1 := hs s.seqK s h
  unfold SeqOp.micro
  cases hst : op.step s.seqK s with
  | mk t o =>
    rw [hst] at h1
    cases o with
    | none => exact h1
    | some r => exact hr _ _ _ h1

theorem resetOp_blind : resetOp.Blind where
  step k s := by
    rcases k with _ | _ | _ | _ | _ | _ | _ | k
    · rfl
    · exact noFrame_ownerView (congrArg (State.goto · 2) (State.emit_ownerView _ rfl))
    · exact noFrame_ownerView (congrArg (State.goto · 3) (State.emit_ownerView _ rfl))
    · exact s.command_ownerView _
    · exact noFrame_ownerView (congrArg (State.goto · 5) (State.emit_ownerView _ rfl))
    · exact s.regWrite_ownerView _ _
    · exact noFrame_ownerView (State.respondP_ownerView _ _)
    · exact noFrame_ownerView s.raiseConfigFault_ownerView
  reply k r s := by
    exact ownerView_ite rfl rfl

theorem resetOp_keepsLock : resetOp.KeepsLock := by
  refine SeqOp.keepsLock_of (fun k s h => ?_) (fun k r s h => ?_)
  · rcases k with _ | _ | _ | _ | _ | _ | _ | k
    · rfl
    · exact h
    · exact h
    · exact (s.request_bufLock _ _ _).trans h
    · exact h
    · exact (s.request_bufLock _ _ _).trans h
    · exact h
    · exact h
  · show (s.nextOr k r 7).bufLock = .free
    unfold State.nextOr; split <;> exact h

theorem powerOnAllOp_blind : powerOnAllOp.Blind where
  step k s := by
    rcases k with _ | _ | k
    · rfl
    · exact s.regWrite_ownerView _ _
    · exact noFrame_ownerView (State.respondP_ownerView _ _)
  reply k r s := by
    exact ownerView_ite rfl s.raiseConfigFault_ownerView

theorem powerOnAllOp_keepsLock : powerOnAllOp.KeepsLock := by
  refine SeqOp.keepsLock_of (fun k s h => ?_) (fun k r s h => ?_)
  · rcases k with _ | _ | k
    · exact h
    · exact (s.request_bufLock _ _ _).trans h
    · exact h
  · show (if _ then _ else _ : State).bufLock = .free
    split <;> exact h

theorem illegalOperandOp_blind : illegalOperandOp.Blind where
  step _ s := noFrame_ownerView (s.raise_ownerView _)
  reply _ _ _ := rfl

theorem illegalOperandOp_keepsLock : illegalOperandOp.KeepsLock :=
  SeqOp.keepsLock_of (fun _ _ h => h) (fun _ _ _ h => h)

theorem setRangeOp_blind (ch rg : Byte) : (setRangeOp ch rg).Blind := by
  unfold setRangeOp
  split
  · rename_i c _
    split
    · refine ⟨fun k s => ?_, fun k r s => ?_⟩
      · rcases k with _ | _ | k
        · rfl
        · exact State.regWrite_ownerView { s with autoArmed := false } _ _
        · exact noFrame_ownerView (State.respondP_ownerView _ _)
      · exact ownerView_ite rfl s.raiseConfigFault_ownerView
    · exact illegalOperandOp_blind
  · exact illegalOperandOp_blind

theorem setRangeOp_keepsLock (ch rg : Byte) : (setRangeOp ch rg).KeepsLock := by
  unfold setRangeOp
  split
  · rename_i c _
    split
    · refine SeqOp.keepsLock_of (fun k s h => ?_) (fun k r s h => ?_)
      · rcases k with _ | _ | k
        · exact h
        · exact (State.request_bufLock { s with autoArmed := false } _ _ _).trans h
        · exact h
      · show (if _ then _ else _ : State).bufLock = .free
        split <;> exact h
    · exact illegalOperandOp_keepsLock
  · exact illegalOperandOp_keepsLock

theorem getRangeOp_blind (ch : Byte) : (getRangeOp ch).Blind := by
  unfold getRangeOp
  split
  · exact ⟨fun _ _ => noFrame_ownerView (State.respondP_ownerView _ _), fun _ _ _ => rfl⟩
  · exact illegalOperandOp_blind

theorem getRangeOp_keepsLock (ch : Byte) : (getRangeOp ch).KeepsLock := by
  unfold getRangeOp
  split
  · exact SeqOp.keepsLock_of (fun _ _ h => h) (fun _ _ _ h => h)
  · exact illegalOperandOp_keepsLock

theorem enterScanOp_blind : enterScanOp.Blind where
  step k s := by
    rcases k with _ | _ | _ | k
    · exact noFrame_ownerView (ownerView_ite (s.raise_ownerView _) (ownerView_ite rfl rfl))
    · exact State.regWrite_ownerView { s with autoArmed := false } _ _
    · exact s.command_ownerView _
    · exact noFrame_ownerView (State.respondP_ownerView _ _)
  reply k r s := by
    exact ownerView_ite (ownerView_ite rfl rfl) s.raiseConfigFault_ownerView

theorem enterScanOp_keepsLock : enterScanOp.KeepsLock := by
  refine SeqOp.keepsLock_of (fun k s h => ?_) (fun k r s h => ?_)
  · rcases k with _ | _ | _ | k
    · show (if _ then _ else _ : State).bufLock = .free
      split
      · exact h
      · split <;> exact h
    · exact (State.request_bufLock { s with autoArmed := false } _ _ _).trans h
    · exact (s.request_bufLock _ _ _).trans h
    · exact h
  · show (enterScanReply k r s).bufLock = .free
    unfold enterScanReply
    split
    · split <;> exact h
    · exact h

theorem readChOp_blind (ch : Byte) : (readChOp ch).Blind := by
  unfold readChOp
  split
  · rename_i c _
    refine ⟨fun k s => ?_, fun k r s => ?_⟩
    · rcases k with _ | _ | _ | _ | k
      · exact noFrame_ownerView (ownerView_ite rfl (s.raise_ownerView _))
      · exact State.command_ownerView { s with autoArmed := false, svalid := clearFlag s.svalid c } _
      · exact s.command_ownerView _
      · exact noFrame_ownerView ((State.respondP_ownerView _ _).trans
          (congrArg (State.respondP · _) (State.commit_ownerView _ _ _)))
      · exact noFrame_ownerView ((State.raise_ownerView _ _).trans
          (congrArg (State.raise · _) (State.commit_ownerView _ _ _)))
    · exact ownerView_ite (ownerView_ite rfl rfl) rfl
  · refine ⟨fun _ s => ?_, fun _ _ _ => rfl⟩
    exact noFrame_ownerView (ownerView_ite (s.raise_ownerView _) (s.raise_ownerView _))

theorem readChOp_keepsLock (ch : Byte) : (readChOp ch).KeepsLock := by
  unfold readChOp
  split
  · rename_i c _
    refine SeqOp.keepsLock_of (fun k s h => ?_) (fun k r s h => ?_)
    · rcases k with _ | _ | _ | _ | k
      · show (if _ then _ else _ : State).bufLock = .free
        split <;> exact h
      · exact (State.request_bufLock { s with autoArmed := false, svalid := clearFlag s.svalid c } _ _ _).trans h
      · exact (s.request_bufLock _ _ _).trans h
      · rfl
      · rfl
    · show (readChReply c k r s).bufLock = .free
      unfold readChReply
      split
      · split <;> exact h
      · exact h
  · refine SeqOp.keepsLock_of (fun _ s h => ?_) (fun _ _ _ h => h)
    show (if _ then _ else _ : State).bufLock = .free
    split <;> exact h

theorem scanStart_ownerView (s : State) : (scanStart s).ownerView = scanStart s.ownerView :=
  ownerView_ite rfl (s.raise_ownerView _)

theorem scanDone_ownerView (s : State) : (scanDone s).ownerView = scanDone s.ownerView :=
  (State.respondP_ownerView _ _).trans (congrArg (State.respondP · _) (State.commit_ownerView _ _ _))

theorem scanFault_ownerView (s : State) : (scanFault s).ownerView = scanFault s.ownerView :=
  (State.respondP_ownerView _ _).trans (congrArg (State.respondP · _) (State.commit_ownerView _ _ _))

theorem scanManualStep_ownerView (k : Nat) (s : State) :
    scanManualStep k s.ownerView = ((scanManualStep k s).1.ownerView, (scanManualStep k s).2) := by
  unfold scanManualStep
  split
  · exact noFrame_ownerView (scanStart_ownerView s)
  · exact s.command_ownerView _
  · exact noFrame_ownerView (scanDone_ownerView s)
  · split
    · exact s.command_ownerView _
    · exact noFrame_ownerView (scanFault_ownerView s)

theorem scanAutoStep_ownerView (k : Nat) (s : State) :
    scanAutoStep k s.ownerView = ((scanAutoStep k s).1.ownerView, (scanAutoStep k s).2) := by
  unfold scanAutoStep
  split
  · exact noFrame_ownerView (scanStart_ownerView s)
  · by_cases ha : s.autoArmed = true
    · rw [if_pos ha, if_pos (show s.ownerView.autoArmed = true from ha)]; rfl
    · rw [if_neg ha, if_neg (show ¬s.ownerView.autoArmed = true from ha)]; exact s.command_ownerView _
  · exact State.command_ownerView { s with autoArmed := false } _
  · exact s.command_ownerView _
  · exact noFrame_ownerView (scanDone_ownerView s)
  · split
    · exact s.command_ownerView _
    · exact noFrame_ownerView (scanFault_ownerView s)

theorem scanAllOp_blind : scanAllOp.Blind where
  step k s := by
    cases hst : s.straps.strategy with
    | manual => simpa [scanAllOp, hst] using scanManualStep_ownerView k s
    | autoSeq => simpa [scanAllOp, hst] using scanAutoStep_ownerView k s
  reply k r s := by
    cases hst : s.straps.strategy with
    | manual =>
      simp only [scanAllOp, hst, State.ownerView_straps]
      exact ownerView_ite (ownerView_ite rfl rfl) rfl
    | autoSeq =>
      simp only [scanAllOp, hst, State.ownerView_straps]
      exact ownerView_ite (ownerView_ite rfl (ownerView_ite rfl rfl)) rfl

theorem scanManualStep_bufLock (k : Nat) (s : State) (h : s.bufLock = .free) :
    (scanManualStep k s).1.bufLock = .free := by
  have hc : ∀ cmd, (s.command cmd).1.bufLock = .free := fun cmd => (s.request_bufLock _ _ _).trans h
  unfold scanManualStep
  split
  · show (scanStart s).bufLock = .free
    unfold scanStart; split <;> exact h
  · exact hc _
  · rfl
  · split
    · exact hc _
    · rfl

theorem scanAutoStep_bufLock (k : Nat) (s : State) (h : s.bufLock = .free) :
    (scanAutoStep k s).1.bufLock = .free := by
  have hc : ∀ cmd, (s.command cmd).1.bufLock = .free := fun cmd => (s.request_bufLock _ _ _).trans h
  unfold scanAutoStep
  split
  · show (scanStart s).bufLock = .free
    unfold scanStart; split <;> exact h
  · split
    · exact h
    · exact hc _
  · exact (State.request_bufLock { s with autoArmed := false } _ _ _).trans h
  · exact hc _
  · rfl
  · split
    · exact hc _
    · rfl

theorem scanAllOp_keepsLock : scanAllOp.KeepsLock := by
  refine SeqOp.keepsLock_of (fun k s h => ?_) (fun k r s h => ?_)
  · simp only [scanAllOp]
    split
    · exact scanManualStep_bufLock k s h
    · exact scanAutoStep_bufLock k s h
  · simp only [scanAllOp]
    split
    · unfold scanManualReply
      split
      · split <;> exact h
      · exact h
    · unfold scanAutoReply
      split
      · split
        · exact h
        · split <;> exact h
      · exact h

theorem getCodesOp_blind : getCodesOp.Blind where
  step _ _ := noFrame_ownerView ((State.respondP_ownerView _ _).trans
    (congrArg (State.respondP · _) (State.emit_ownerView _ rfl)))
  reply _ _ _ := rfl

theorem getCodesOp_keepsLock : getCodesOp.KeepsLock :=
  SeqOp.keepsLock_of (fun _ _ _ => rfl) (fun _ _ _ h => h)

theorem toVoltageOp_blind (code : Code) (rg : Byte) : (toVoltageOp code rg).Blind where
  step _ _ := noFrame_ownerView (State.respondP_ownerView _ _)
  reply _ _ _ := rfl

theorem toVoltageOp_keepsLock (code : Code) (rg : Byte) : (toVoltageOp code rg).KeepsLock :=
  SeqOp.keepsLock_of (fun _ _ h => h) (fun _ _ _ h => h)

/-! ## The slots are the tick's alone -/

theorem State.request_slots (s : State) (kind : ReqKind) (w : Width) (tx : TxWord) :
    (s.request kind w tx).1.slots = s.slots := by
  rcases s.request_cases kind w tx with ⟨b, _, h⟩ | ⟨a, b, rx, _, _, h⟩ | ⟨a, b, _, _, h⟩ <;> rw [h]

theorem SeqOp.keepsSlots_of {op : SeqOp} (hs : ∀ k s, (op.step k s).1.slots = s.slots)
    (hr : ∀ k r s, (op.reply k r s).slots = s.slots) : op.KeepsSlots := by
  intro s
  have h1 := hs s.seqK s
  unfold SeqOp.micro
  cases hst : op.step s.seqK s with
  | mk t o =>
    rw [hst] at h1
    cases o with
    | none => exact h1
    | some r => exact (hr _ _ _).trans h1

theorem resetOp_keepsSlots : resetOp.KeepsSlots := by
  refine SeqOp.keepsSlots_of (fun k s => ?_) (fun k r s => ?_)
  · rcases k with _ | _ | _ | _ | _ | _ | _ | k
    · rfl
    · rfl
    · rfl
    · exact s.request_slots _ _ _
    · rfl
    · exact s.request_slots _ _ _
    · rfl
    · rfl
  · show (s.nextOr k r 7).slots = s.slots
    unfold State.nextOr; split <;> rfl

theorem powerOnAllOp_keepsSlots : powerOnAllOp.KeepsSlots := by
  refine SeqOp.keepsSlots_of (fun k s => ?_) (fun k r s => ?_)
  · rcases k with _ | _ | k
    · rfl
    · exact s.request_slots _ _ _
    · rfl
  · show (if _ then _ else _ : State).slots = s.slots
    split <;> rfl

theorem illegalOperandOp_keepsSlots : illegalOperandOp.KeepsSlots :=
  SeqOp.keepsSlots_of (fun _ _ => rfl) (fun _ _ _ => rfl)

theorem setRangeOp_keepsSlots (ch rg : Byte) : (setRangeOp ch rg).KeepsSlots := by
  unfold setRangeOp
  split
  · rename_i c _
    split
    · refine SeqOp.keepsSlots_of (fun k s => ?_) (fun k r s => ?_)
      · rcases k with _ | _ | k
        · rfl
        · exact State.request_slots { s with autoArmed := false } _ _ _
        · rfl
      · show (if _ then _ else _ : State).slots = s.slots
        split <;> rfl
    · exact illegalOperandOp_keepsSlots
  · exact illegalOperandOp_keepsSlots

theorem getRangeOp_keepsSlots (ch : Byte) : (getRangeOp ch).KeepsSlots := by
  unfold getRangeOp
  split
  · exact SeqOp.keepsSlots_of (fun _ _ => rfl) (fun _ _ _ => rfl)
  · exact illegalOperandOp_keepsSlots

theorem enterScanOp_keepsSlots : enterScanOp.KeepsSlots := by
  refine SeqOp.keepsSlots_of (fun k s => ?_) (fun k r s => ?_)
  · rcases k with _ | _ | _ | k
    · show (if _ then _ else _ : State).slots = s.slots
      split
      · rfl
      · split <;> rfl
    · exact State.request_slots { s with autoArmed := false } _ _ _
    · exact s.request_slots _ _ _
    · rfl
  · show (enterScanReply k r s).slots = s.slots
    unfold enterScanReply
    split
    · split <;> rfl
    · rfl

theorem readChOp_keepsSlots (ch : Byte) : (readChOp ch).KeepsSlots := by
  unfold readChOp
  split
  · rename_i c _
    refine SeqOp.keepsSlots_of (fun k s => ?_) (fun k r s => ?_)
    · rcases k with _ | _ | _ | _ | k
      · show (if _ then _ else _ : State).slots = s.slots
        split <;> rfl
      · exact State.request_slots { s with autoArmed := false, svalid := clearFlag s.svalid c } _ _ _
      · exact s.request_slots _ _ _
      · rfl
      · rfl
    · show (readChReply c k r s).slots = s.slots
      unfold readChReply
      split
      · split <;> rfl
      · rfl
  · refine SeqOp.keepsSlots_of (fun _ s => ?_) (fun _ _ _ => rfl)
    show (if _ then _ else _ : State).slots = s.slots
    split <;> rfl

theorem scanManualStep_slots (k : Nat) (s : State) :
    (scanManualStep k s).1.slots = s.slots := by
  have hc : ∀ cmd, (s.command cmd).1.slots = s.slots := fun cmd => s.request_slots _ _ _
  unfold scanManualStep
  split
  · show (scanStart s).slots = s.slots
    unfold scanStart; split <;> rfl
  · exact hc _
  · rfl
  · split
    · exact hc _
    · rfl

theorem scanAutoStep_slots (k : Nat) (s : State) :
    (scanAutoStep k s).1.slots = s.slots := by
  have hc : ∀ cmd, (s.command cmd).1.slots = s.slots := fun cmd => s.request_slots _ _ _
  unfold scanAutoStep
  split
  · show (scanStart s).slots = s.slots
    unfold scanStart; split <;> rfl
  · split
    · rfl
    · exact hc _
  · exact State.request_slots { s with autoArmed := false } _ _ _
  · exact hc _
  · rfl
  · split
    · exact hc _
    · rfl

theorem scanAllOp_keepsSlots : scanAllOp.KeepsSlots := by
  refine SeqOp.keepsSlots_of (fun k s => ?_) (fun k r s => ?_)
  · simp only [scanAllOp]
    split
    · exact scanManualStep_slots k s
    · exact scanAutoStep_slots k s
  · simp only [scanAllOp]
    split
    · unfold scanManualReply
      split
      · split <;> rfl
      · rfl
    · unfold scanAutoReply
      split
      · split
        · rfl
        · split <;> rfl
      · rfl

theorem getCodesOp_keepsSlots : getCodesOp.KeepsSlots :=
  SeqOp.keepsSlots_of (fun _ _ => rfl) (fun _ _ _ => rfl)

theorem toVoltageOp_keepsSlots (code : Code) (rg : Byte) : (toVoltageOp code rg).KeepsSlots :=
  SeqOp.keepsSlots_of (fun _ _ => rfl) (fun _ _ _ => rfl)

/-! ## The operation in progress, whichever it is -/

theorem SeqOp.of_some {P : SeqOp → Prop} {a op : SeqOp} (ha : P a) (h : some a = some op) : P op :=
  Option.some.inj h ▸ ha

/-- Every operation of SEQ is blind to port C and leaves the lock free and the slots alone. -/
theorem seqOpOf_blind {i : Instr} {op : SeqOp} (h : seqOpOf i = some op) :
    op.Blind ∧ op.KeepsLock ∧ op.KeepsSlots := by
  let P := fun op : SeqOp => op.Blind ∧ op.KeepsLock ∧ op.KeepsSlots
  cases i with
  | reset => exact SeqOp.of_some (P := P) ⟨resetOp_blind, resetOp_keepsLock, resetOp_keepsSlots⟩ h
  | powerOnAll => exact SeqOp.of_some (P := P) ⟨powerOnAllOp_blind, powerOnAllOp_keepsLock, powerOnAllOp_keepsSlots⟩ h
  | setRange ch rg => exact SeqOp.of_some (P := P) ⟨setRangeOp_blind _ _, setRangeOp_keepsLock _ _, setRangeOp_keepsSlots _ _⟩ h
  | getRange ch => exact SeqOp.of_some (P := P) ⟨getRangeOp_blind _, getRangeOp_keepsLock _, getRangeOp_keepsSlots _⟩ h
  | enterScan => exact SeqOp.of_some (P := P) ⟨enterScanOp_blind, enterScanOp_keepsLock, enterScanOp_keepsSlots⟩ h
  | readCh ch => exact SeqOp.of_some (P := P) ⟨readChOp_blind _, readChOp_keepsLock _, readChOp_keepsSlots _⟩ h
  | scanAll => exact SeqOp.of_some (P := P) ⟨scanAllOp_blind, scanAllOp_keepsLock, scanAllOp_keepsSlots⟩ h
  | getCodes => exact SeqOp.of_some (P := P) ⟨getCodesOp_blind, getCodesOp_keepsLock, getCodesOp_keepsSlots⟩ h
  | toVoltage code rg => exact SeqOp.of_some (P := P) ⟨toVoltageOp_blind _ _, toVoltageOp_keepsLock _ _, toVoltageOp_keepsSlots _ _⟩ h
  | _ => exact absurd h (Option.some_ne_none op).symm

/-- The operation in progress is one of them, and the owner's view knows it. -/
theorem State.currentOp_blind {s : State} {op : SeqOp} (h : s.currentOp = some op) :
    op.Blind ∧ op.KeepsLock ∧ op.KeepsSlots := by
  unfold State.currentOp at h
  split at h
  · split at h
    · rename_i o ho
      split at h
      · cases h; exact seqOpOf_blind ho
      · cases h
    · cases h
  · cases h

@[simp] theorem State.ownerView_currentOp (s : State) : s.ownerView.currentOp = s.currentOp := rfl

end Sys2Proof.Machine
end

