-- ==== Sys2Proof/Laws/PerInstr.lean ====
section
/-! SUPPORT. For each instruction: its packet at the default parameters carries the fixed bits of its row
of spec/opcode_table.json, at the level of its row's format (R90, R96, R106, R111, R112). -/

namespace Sys2Proof

/-- A row of the table: the fixed bits of a packet of one level. -/
inductive TableRow where
  | host (mask val : BitVec 32)
  | request (mask val : BitVec 35)
  | frame (w : Width) (mask val : BitVec 32)
  deriving DecidableEq, Repr

/-- The packet is one of the row's level and carries its fixed bits. -/
def TableRow.admits : TableRow → Packet → Prop
  | .host mask val, .host cw => cw &&& mask = val
  | .request mask val, .request rq => rq &&& mask = val
  | .frame w mask val, .frame w' tx => w' = w ∧ tx &&& mask = val
  | _, _ => False

/-- The mask and match of each row, as spec/opcode_table.json prints them. -/
def tableRow : Instr → TableRow
  | .reset => .host 0xFFFFFFFF 0x10000000
  | .powerOnAll => .host 0xFFFFFFFF 0x20000000
  | .setRange _ _ => .host 0xFF0000FF 0x30000000
  | .getRange _ => .host 0xFF00FFFF 0x40000000
  | .enterScan => .host 0xFFFFFFFF 0x50000000
  | .readCh _ => .host 0xFF00FFFF 0x60000000
  | .scanAll => .host 0xFFFFFFFF 0x70000000
  | .getCodes => .host 0xFFFFFFFF 0x80000000
  | .toVoltage _ _ => .host 0xFF000000 0x90000000
  | .transact _ _ => .request 0x400000000 0x000000000
  | .writeReg _ _ => .request 0x7FFFF8000 0x500000000
  | .wNoOp => .frame .w32 0xFFFFFFFF 0x00000000
  | .wRst => .frame .w32 0xFFFFFFFF 0x85000000
  | .wAutoRst => .frame .w32 0xFFFFFFFF 0xA0000000
  | .wManCh0 => .frame .w32 0xFFFFFFFF 0xC0000000
  | .wManCh1 => .frame .w32 0xFFFFFFFF 0xC4000000
  | .wManCh2 => .frame .w32 0xFFFFFFFF 0xC8000000
  | .wManCh3 => .frame .w32 0xFFFFFFFF 0xCC000000
  | .wManCh4 => .frame .w32 0xFFFFFFFF 0xD0000000
  | .wManCh5 => .frame .w32 0xFFFFFFFF 0xD4000000
  | .wManCh6 => .frame .w32 0xFFFFFFFF 0xD8000000
  | .wManCh7 => .frame .w32 0xFFFFFFFF 0xDC000000
  | .wWr _ _ => .frame .w24 0xFF0100FF 0x010000
  | .wWrAutoSeqEn => .frame .w24 0xFFFFFFFF 0x03FF00
  | .wWrChPwrDn => .frame .w24 0xFFFFFFFF 0x050000
  | .wWrRange0 _ => .frame .w24 0xFFFF00FF 0x0B0000
  | .wWrRange1 _ => .frame .w24 0xFFFF00FF 0x0D0000
  | .wWrRange2 _ => .frame .w24 0xFFFF00FF 0x0F0000
  | .wWrRange3 _ => .frame .w24 0xFFFF00FF 0x110000
  | .wWrRange4 _ => .frame .w24 0xFFFF00FF 0x130000
  | .wWrRange5 _ => .frame .w24 0xFFFF00FF 0x150000
  | .wWrRange6 _ => .frame .w24 0xFFFF00FF 0x170000
  | .wWrRange7 _ => .frame .w24 0xFFFF00FF 0x190000

/-- The packet of the instruction carries its row's fixed bits; of a 24-bit frame, the bits above it are 0. -/
def Laws.MatchesTable.Statement (i : Instr) : Prop := (tableRow i).admits (encode Config.default i)

/-- Of a register frame the mask of the range rows leaves all but DATA8 (R112). -/
theorem regFrame_and (a : BitVec 7) (v : Byte) : regFrame a v &&& 0xFFFF00FF = regFrame a 0 := by
  apply BitVec.eq_of_getLsbD_eq
  intro i hi
  interval_cases i <;>
    (simp only [regFrame, BitVec.getLsbD_and, BitVec.getLsbD_append]; simp)

/-! ## One lemma for each row -/

theorem Laws.MatchesTable.reset : Laws.MatchesTable.Statement .reset :=
  show _ &&& _ = _ by decide

theorem Laws.MatchesTable.powerOnAll : Laws.MatchesTable.Statement .powerOnAll :=
  show _ &&& _ = _ by decide

theorem Laws.MatchesTable.setRange (ch rg : Byte) : Laws.MatchesTable.Statement (.setRange ch rg) := by
  refine show _ &&& _ = _ from ?_
  apply BitVec.eq_of_getLsbD_eq
  intro i hi
  interval_cases i <;>
    (simp only [hostWord, BitVec.getLsbD_and, BitVec.getLsbD_append]; simp)

theorem Laws.MatchesTable.getRange (ch : Byte) : Laws.MatchesTable.Statement (.getRange ch) := by
  refine show _ &&& _ = _ from ?_
  apply BitVec.eq_of_getLsbD_eq
  intro i hi
  interval_cases i <;>
    (simp only [hostWord, BitVec.getLsbD_and, BitVec.getLsbD_append]; simp)

theorem Laws.MatchesTable.enterScan : Laws.MatchesTable.Statement .enterScan :=
  show _ &&& _ = _ by decide

theorem Laws.MatchesTable.readCh (ch : Byte) : Laws.MatchesTable.Statement (.readCh ch) := by
  refine show _ &&& _ = _ from ?_
  apply BitVec.eq_of_getLsbD_eq
  intro i hi
  interval_cases i <;>
    (simp only [hostWord, BitVec.getLsbD_and, BitVec.getLsbD_append]; simp)

theorem Laws.MatchesTable.scanAll : Laws.MatchesTable.Statement .scanAll :=
  show _ &&& _ = _ by decide

theorem Laws.MatchesTable.getCodes : Laws.MatchesTable.Statement .getCodes :=
  show _ &&& _ = _ by decide

theorem Laws.MatchesTable.toVoltage (code : Code) (rg : Byte) : Laws.MatchesTable.Statement (.toVoltage code rg) := by
  refine show _ &&& _ = _ from ?_
  apply BitVec.eq_of_getLsbD_eq
  intro i hi
  interval_cases i <;>
    (simp only [hostWord, BitVec.getLsbD_and, BitVec.getLsbD_append]; simp)

theorem Laws.MatchesTable.transact (wsel : BitVec 2) (payload : BitVec 32) : Laws.MatchesTable.Statement (.transact wsel payload) := by
  refine show _ &&& _ = _ from ?_
  apply BitVec.eq_of_getLsbD_eq
  intro i hi
  interval_cases i <;>
    (simp only [requestWord, BitVec.getLsbD_and, BitVec.getLsbD_append]; simp)

theorem Laws.MatchesTable.writeReg (a : BitVec 7) (v : Byte) : Laws.MatchesTable.Statement (.writeReg a v) := by
  refine show _ &&& _ = _ from ?_
  apply BitVec.eq_of_getLsbD_eq
  intro i hi
  interval_cases i <;>
    (simp only [requestWord, BitVec.getLsbD_and, BitVec.getLsbD_append]; simp)

theorem Laws.MatchesTable.wNoOp : Laws.MatchesTable.Statement .wNoOp :=
  ⟨rfl, by decide⟩

theorem Laws.MatchesTable.wRst : Laws.MatchesTable.Statement .wRst :=
  ⟨rfl, by decide⟩

theorem Laws.MatchesTable.wAutoRst : Laws.MatchesTable.Statement .wAutoRst :=
  ⟨rfl, by decide⟩

theorem Laws.MatchesTable.wManCh0 : Laws.MatchesTable.Statement .wManCh0 :=
  ⟨rfl, by decide⟩

theorem Laws.MatchesTable.wManCh1 : Laws.MatchesTable.Statement .wManCh1 :=
  ⟨rfl, by decide⟩

theorem Laws.MatchesTable.wManCh2 : Laws.MatchesTable.Statement .wManCh2 :=
  ⟨rfl, by decide⟩

theorem Laws.MatchesTable.wManCh3 : Laws.MatchesTable.Statement .wManCh3 :=
  ⟨rfl, by decide⟩

theorem Laws.MatchesTable.wManCh4 : Laws.MatchesTable.Statement .wManCh4 :=
  ⟨rfl, by decide⟩

theorem Laws.MatchesTable.wManCh5 : Laws.MatchesTable.Statement .wManCh5 :=
  ⟨rfl, by decide⟩

theorem Laws.MatchesTable.wManCh6 : Laws.MatchesTable.Statement .wManCh6 :=
  ⟨rfl, by decide⟩

theorem Laws.MatchesTable.wManCh7 : Laws.MatchesTable.Statement .wManCh7 :=
  ⟨rfl, by decide⟩

theorem Laws.MatchesTable.wWr (a : BitVec 7) (v : Byte) : Laws.MatchesTable.Statement (.wWr a v) := by
  refine ⟨rfl, ?_⟩
  apply BitVec.eq_of_getLsbD_eq
  intro i hi
  interval_cases i <;>
    (simp only [regFrame, BitVec.getLsbD_and, BitVec.getLsbD_append]; simp)

theorem Laws.MatchesTable.wWrAutoSeqEn : Laws.MatchesTable.Statement .wWrAutoSeqEn :=
  ⟨rfl, by decide⟩

theorem Laws.MatchesTable.wWrChPwrDn : Laws.MatchesTable.Statement .wWrChPwrDn :=
  ⟨rfl, by decide⟩

theorem Laws.MatchesTable.wWrRange0 (v : Byte) : Laws.MatchesTable.Statement (.wWrRange0 v) :=
  ⟨rfl, (regFrame_and _ v).trans (by decide)⟩

theorem Laws.MatchesTable.wWrRange1 (v : Byte) : Laws.MatchesTable.Statement (.wWrRange1 v) :=
  ⟨rfl, (regFrame_and _ v).trans (by decide)⟩

theorem Laws.MatchesTable.wWrRange2 (v : Byte) : Laws.MatchesTable.Statement (.wWrRange2 v) :=
  ⟨rfl, (regFrame_and _ v).trans (by decide)⟩

theorem Laws.MatchesTable.wWrRange3 (v : Byte) : Laws.MatchesTable.Statement (.wWrRange3 v) :=
  ⟨rfl, (regFrame_and _ v).trans (by decide)⟩

theorem Laws.MatchesTable.wWrRange4 (v : Byte) : Laws.MatchesTable.Statement (.wWrRange4 v) :=
  ⟨rfl, (regFrame_and _ v).trans (by decide)⟩

theorem Laws.MatchesTable.wWrRange5 (v : Byte) : Laws.MatchesTable.Statement (.wWrRange5 v) :=
  ⟨rfl, (regFrame_and _ v).trans (by decide)⟩

theorem Laws.MatchesTable.wWrRange6 (v : Byte) : Laws.MatchesTable.Statement (.wWrRange6 v) :=
  ⟨rfl, (regFrame_and _ v).trans (by decide)⟩

theorem Laws.MatchesTable.wWrRange7 (v : Byte) : Laws.MatchesTable.Statement (.wWrRange7 v) :=
  ⟨rfl, (regFrame_and _ v).trans (by decide)⟩

end Sys2Proof
end

