-- ==== Sys2Proof/Tests/Slice0.lean ====
section
/-! SUPPORT. Tests: the WellFormed smoke, one word written out from the spec's encoding for every row,
the examples of the rules, and for every statement of the obligations a state that meets its premises. -/

namespace Sys2Proof.Tests

open Sys2Proof Sys2Proof.Machine

/-! ## WellFormed: each check refuses a term (R112) -/

theorem test_wellFormed_refuses_autoSeqEn_frame : (Instr.wWr 0x01 0xFF).wellFormed Config.default = false := by decide
theorem test_wellFormed_refuses_chPwrDn_frame : (Instr.wWr 0x02 0x00).wellFormed Config.default = false := by decide
theorem test_wellFormed_refuses_range_frame : (Instr.wWr 0x0C 0x00).wellFormed Config.default = false := by decide
theorem test_wellFormed_takes_other_frame : (Instr.wWr 0x0D 0x00).wellFormed Config.default = true := by decide

/-! ## Decoding, each word laid out field by field from R91 to R96, R106, R108, R109, R111, R112 -/

theorem test_decode_RESET : decodeHost (0x1#4 ++ 0x0#4 ++ 0x000000#24) = .ok .reset := by rfl
theorem test_decode_POWER_ON_ALL : decodeHost (0x2#4 ++ 0x0#4 ++ 0x000000#24) = .ok .powerOnAll := by rfl
theorem test_decode_SET_RANGE : decodeHost (0x3#4 ++ 0x0#4 ++ 0x03#8 ++ 0x05#8 ++ 0x00#8) = .ok (.setRange 3 5) := by rfl
theorem test_decode_GET_RANGE : decodeHost (0x4#4 ++ 0x0#4 ++ 0x07#8 ++ 0x0000#16) = .ok (.getRange 7) := by rfl
theorem test_decode_ENTER_SCAN : decodeHost (0x5#4 ++ 0x0#4 ++ 0x000000#24) = .ok .enterScan := by rfl
theorem test_decode_READ_CH : decodeHost (0x6#4 ++ 0x0#4 ++ 0xF5#8 ++ 0x0000#16) = .ok (.readCh 0xF5) := by rfl
theorem test_decode_SCAN_ALL : decodeHost (0x7#4 ++ 0x0#4 ++ 0x000000#24) = .ok .scanAll := by rfl
theorem test_decode_GET_CODES : decodeHost (0x8#4 ++ 0x0#4 ++ 0x000000#24) = .ok .getCodes := by rfl
theorem test_decode_TO_VOLTAGE : decodeHost (0x9#4 ++ 0x0#4 ++ 0x06#8 ++ 0x8001#16) = .ok (.toVoltage 0x8001 6) := by rfl
theorem test_decode_TRANSACT : decodeRequest (0b0#1 ++ 0b10#2 ++ 0xC4000001#32) = .ok (.transact 2 0xC4000001) := by rfl
theorem test_decode_WRITE_REG : decodeRequest (0b1#1 ++ 0b01#2 ++ 0#17 ++ 0x42#7 ++ 0xA5#8) = .ok (.writeReg 0x42 0xA5) := by rfl
theorem test_decode_W_NO_OP : decodeFrame Config.default .w32 (0x0000#16 ++ 0x0000#16) = .ok .wNoOp := by rfl
theorem test_decode_W_RST : decodeFrame Config.default .w32 (0x8500#16 ++ 0x0000#16) = .ok .wRst := by rfl
theorem test_decode_W_AUTO_RST : decodeFrame Config.default .w32 (0xA000#16 ++ 0x0000#16) = .ok .wAutoRst := by rfl
theorem test_decode_W_MAN_CH0 : decodeFrame Config.default .w32 (0xC000#16 ++ 0x0000#16) = .ok .wManCh0 := by rfl
theorem test_decode_W_MAN_CH1 : decodeFrame Config.default .w32 (0xC400#16 ++ 0x0000#16) = .ok .wManCh1 := by rfl
theorem test_decode_W_MAN_CH2 : decodeFrame Config.default .w32 (0xC800#16 ++ 0x0000#16) = .ok .wManCh2 := by rfl
theorem test_decode_W_MAN_CH3 : decodeFrame Config.default .w32 (0xCC00#16 ++ 0x0000#16) = .ok .wManCh3 := by rfl
theorem test_decode_W_MAN_CH4 : decodeFrame Config.default .w32 (0xD000#16 ++ 0x0000#16) = .ok .wManCh4 := by rfl
theorem test_decode_W_MAN_CH5 : decodeFrame Config.default .w32 (0xD400#16 ++ 0x0000#16) = .ok .wManCh5 := by rfl
theorem test_decode_W_MAN_CH6 : decodeFrame Config.default .w32 (0xD800#16 ++ 0x0000#16) = .ok .wManCh6 := by rfl
theorem test_decode_W_MAN_CH7 : decodeFrame Config.default .w32 (0xDC00#16 ++ 0x0000#16) = .ok .wManCh7 := by rfl
theorem test_decode_W_WR :
    decodeFrame Config.default .w24 (0#8 ++ 0x7F#7 ++ 1#1 ++ 0xA5#8 ++ 0x00#8) = .ok (.wWr 0x7F 0xA5) := by rfl
theorem test_decode_W_WR_AUTO_SEQ_EN :
    decodeFrame Config.default .w24 (0#8 ++ 0x01#7 ++ 1#1 ++ 0xFF#8 ++ 0x00#8) = .ok .wWrAutoSeqEn := by rfl
theorem test_decode_W_WR_CH_PWR_DN :
    decodeFrame Config.default .w24 (0#8 ++ 0x02#7 ++ 1#1 ++ 0x00#8 ++ 0x00#8) = .ok .wWrChPwrDn := by rfl
theorem test_decode_W_WR_RANGE0 :
    decodeFrame Config.default .w24 (0#8 ++ 0x05#7 ++ 1#1 ++ 0x06#8 ++ 0x00#8) = .ok (.wWrRange0 6) := by rfl
theorem test_decode_W_WR_RANGE1 :
    decodeFrame Config.default .w24 (0#8 ++ 0x06#7 ++ 1#1 ++ 0x06#8 ++ 0x00#8) = .ok (.wWrRange1 6) := by rfl
theorem test_decode_W_WR_RANGE2 :
    decodeFrame Config.default .w24 (0#8 ++ 0x07#7 ++ 1#1 ++ 0x06#8 ++ 0x00#8) = .ok (.wWrRange2 6) := by rfl
theorem test_decode_W_WR_RANGE3 :
    decodeFrame Config.default .w24 (0#8 ++ 0x08#7 ++ 1#1 ++ 0x06#8 ++ 0x00#8) = .ok (.wWrRange3 6) := by rfl
theorem test_decode_W_WR_RANGE4 :
    decodeFrame Config.default .w24 (0#8 ++ 0x09#7 ++ 1#1 ++ 0x06#8 ++ 0x00#8) = .ok (.wWrRange4 6) := by rfl
theorem test_decode_W_WR_RANGE5 :
    decodeFrame Config.default .w24 (0#8 ++ 0x0A#7 ++ 1#1 ++ 0x06#8 ++ 0x00#8) = .ok (.wWrRange5 6) := by rfl
theorem test_decode_W_WR_RANGE6 :
    decodeFrame Config.default .w24 (0#8 ++ 0x0B#7 ++ 1#1 ++ 0x06#8 ++ 0x00#8) = .ok (.wWrRange6 6) := by rfl
theorem test_decode_W_WR_RANGE7 :
    decodeFrame Config.default .w24 (0#8 ++ 0x0C#7 ++ 1#1 ++ 0x06#8 ++ 0x00#8) = .ok (.wWrRange7 6) := by rfl

/-! Reserved encodings are refused by name (R103, R107, R110, R111, R112). -/

theorem test_decode_reserved_op : decodeHost 0xA0000000 = .error .reservedOp := by rfl
theorem test_decode_reserved_bits : decodeHost 0x11000000 = .error .reservedBits := by rfl
theorem test_decode_must_be_zero : decodeHost 0x30030501 = .error .mustBeZero := by rfl
theorem test_decode_write_reg_upper : decodeRequest 0x500008000 = .error .malformedWriteReg := by rfl
theorem test_decode_unknown_command : decodeFrame Config.default .w32 0x12340000 = .error .unknownCommand := by rfl
theorem test_decode_register_read : decodeFrame Config.default .w24 0x040000 = .error .notARegisterWrite := by rfl
theorem test_decode_no_format : decodeFrame Config.default .w16 0 = .error .noSuchFormat := by rfl

/-! ## States for the tests -/

/-- After reset, with inputs and answers of BUS queued. -/
def idle (i : List Input) (b : List BusAnswer) : State := { State.reset with inbox := i, busIn := b }

/-- The same in `Ready`, under a strategy. -/
def ready (k : Strategy) (armed : Bool) (b : List BusAnswer) : State :=
  { State.reset with
    drvState := .ready, straps := { Straps.default with strategy := k }, autoArmed := armed, busIn := b }

/-- The same in `Configuring`. -/
def configuring (k : Strategy) (b : List BusAnswer) : State := { ready k false b with drvState := .configuring }

/-- DEV in auto-sequence mode at channel 0, its result pending. -/
def devAuto : Dev := { Dev.initial with mode := .auto 0, pending := some 0x1111, sampler := .tagged }

/-- `n` frames answered 0xF000 + i, i counted from `i`. -/
def answers (i n : Nat) : List BusAnswer := (List.range n).map fun j => .answer (BitVec.ofNat 32 (0xF000 + i + j))

/-- Nothing is due in the slots, so no hardware reset is. -/
theorem noRst {s : State} (h : s.slots = []) : s.NoRst := fun _ hk => by simp [h] at hk

/-- A question about the next state; false of a fault or a refusal. -/
def asks (o : Host.Outcome State Fault Refusal) (q : State → Bool) : Bool :=
  match o with
  | .next t => q t
  | .fault _ => false
  | .refused _ => false

/-! ## The examples of the rules -/

/-- R166's example. -/
theorem test_RESET_events :
    asks (exec .reset (idle [] [.answer 7, .answer 9])) (fun t =>
      t.hist == [.op .P 0x10000000, .csDeassert, .delay 10000, .frame .w32 0x85000000 (.rxOk 7),
        .delay 50000, .frame .w24 0x050000 (.rxOk 9), .resp .P ⟨.ok, 0, 0⟩]
      && t.drvState == .configuring) = true := by decide +kernel

/-- R167 (a): a RESET that faults at step 3. -/
theorem test_RESET_fault :
    asks (exec .reset (idle [] [.notReady])) (fun t =>
      t.hist.drop 3 == [.refused .w32 0x85000000, .resp .P ⟨.busFault, 0, 0⟩] && t.drvState == .uninitialized) =
      true := by decide +kernel

/-- R340: hardware reset in the first wait of a RESET: no frame is sent, no answer given. -/
theorem test_RESET_cut_off :
    asks (exec .reset { idle [] [] with slots := [.quiet, .quiet, .rst ⟨.autoSeq, .hwCs, .offsetBinary⟩] }) (fun t =>
      t.hist == [.op .P 0x10000000, .csDeassert] && t.drvState == .uninitialized && t.straps.strategy == .autoSeq
      && !t.busy && t.pResp.isNone) = true := by decide +kernel

/-- R79, R362: three snapshots inside one wait of a RESET. -/
theorem test_RESET_snapshots_in_a_wait :
    asks (exec .reset { idle [] [.notReady] with slots := [.quiet, .quiet,
        .after [0x80000000, 0x80000000, 0x80000000]] }) (fun t =>
      (t.hist.filter fun e => match e with
        | .resp .C _ => true
        | _ => false).length == 3 && t.hist.getLast? == some (.resp .P ⟨.busFault, 0, 0⟩)) = true := by
  decide +kernel

/-- R171's example. -/
theorem test_POWER_ON_ALL_events :
    asks (exec .powerOnAll (ready .autoSeq true [.answer 9])) (fun t =>
      t.hist.drop 1 == [.frame .w24 0x050000 (.rxOk 9), .resp .P ⟨.ok, 0, 0⟩]
      && t.drvState == .ready && !t.autoArmed) = true := by decide +kernel

/-- R175's example. -/
theorem test_SET_RANGE_events :
    asks (exec (.setRange 3 5) (idle [] [.answer 9])) (fun t =>
      t.hist.drop 1 == [.frame .w24 0x110500 (.rxOk 9), .resp .P ⟨.ok, 0, 0⟩] && t.range[3] == 5) = true := by
  decide +kernel

/-- R105, R305: SET_RANGE 8, 0x07 is answered once, whatever the bus. -/
theorem test_SET_RANGE_refused :
    asks (exec (.setRange 8 7) (idle [] [.notReady])) (fun t =>
      t.hist.drop 1 == [.resp .P ⟨.invalidArgument, 0, 0⟩] && t.busIn == [.notReady]) = true := by decide +kernel

/-- R179's example. -/
theorem test_GET_RANGE_answer :
    asks (exec (.setRange 3 5) (idle [] [.answer 9])) (fun t => asks (exec (.getRange 3) t) (fun u =>
      u.pResp == some ⟨.ok, 0, 5⟩)) = true := by decide +kernel

/-- R184's example. -/
theorem test_ENTER_SCAN_events :
    asks (exec .enterScan (configuring .autoSeq [.answer 8, .answer 9])) (fun t =>
      t.hist.drop 1 == [.frame .w24 0x03FF00 (.rxOk 8), .frame .w32 0xA0000000 (.rxOk 9), .resp .P ⟨.ok, 0, 0⟩]
      && t.drvState == .ready && t.autoArmed) = true := by decide +kernel

/-- R200's example. -/
theorem test_READ_CH_example :
    asks (exec (.readCh 5) (ready .manual false [.answer 0xAAAA, .answer 0x1234])) (fun t =>
      (t.hist.drop 1).take 2 == [.frame .w32 0xD4000000 (.rxOk 0xAAAA), .frame .w32 0 (.rxOk 0x1234)]
      && t.pResp == some ⟨.ok, 0, 0x1234⟩ && t.code[5] == 0x1234 && t.valid == 0x20) = true := by decide +kernel

/-- R305's consequence: READ_CH 9 in `Configuring`. -/
theorem test_READ_CH_order :
    asks (exec (.readCh 9) (configuring .manual [])) (fun t => t.pResp == some ⟨.notInitialized, 0, 0⟩) = true := by
  decide +kernel

/-- R208's example. -/
theorem test_SCAN_ALL_manual :
    asks (exec .scanAll (ready .manual false (answers 0 9))) (fun t =>
      t.code == #v[0xF001, 0xF002, 0xF003, 0xF004, 0xF005, 0xF006, 0xF007, 0xF008] && t.valid == 0xFF) = true := by
  decide +kernel

/-- R213's example. -/
theorem test_SCAN_ALL_auto :
    asks (exec .scanAll (ready .autoSeq true (answers 1 8))) (fun t =>
      t.code == #v[0xF001, 0xF002, 0xF003, 0xF004, 0xF005, 0xF006, 0xF007, 0xF008]
      && (t.hist.drop 8).take 1 == [.frame .w32 0xA0000000 (.rxOk 0xF008)] && t.autoArmed) = true := by
  decide +kernel

/-- R220's example: lanes 0xF001 to 0xF008 on port C. -/
theorem test_GET_CODES_port_C :
    asks (exec .scanAll (ready .manual false (answers 0 9))) (fun t =>
      asks (exec .getCodes { t with port := .C }) (fun u =>
        u.cResp == some ⟨.ok, 0xFF, 0xF008F007F006F005F004F003F002F001⟩)) = true := by decide +kernel

/-- R343: GET_CODES right after reset. -/
theorem test_GET_CODES_after_reset :
    asks (exec .getCodes State.reset) (fun t => t.curStatus == .ok && t.pResp.isSome && t.valid == 0) = true := by
  rfl

/-- R231's example. -/
theorem test_TO_VOLTAGE_example :
    asks (exec (.toVoltage 16384 0) State.reset) (fun t => t.pResp == some ⟨.ok, 0, 0x00040000⟩) = true := by
  decide +kernel

/-- R237: the most negative voltage, sign-extended in 32 bits. -/
theorem test_TO_VOLTAGE_most_negative :
    asks (exec (.toVoltage 0x8000 0) { State.reset with port := .C }) (fun t =>
      t.cResp == some ⟨.ok, 0, 0xFFF80000⟩) = true := by decide +kernel

/-- R131's example. -/
theorem test_TRANSACT_example :
    asks (exec (.transact 2 0xC4000000) (idle [] [.answer 0x1234])) (fun t =>
      t.hist == [.frame .w32 0xC4000000 (.rxOk 0x1234)] && t.ftReply == some ⟨.ok, 0x1234⟩) = true := by
  decide +kernel

/-- R131: bits above the width are ignored. -/
theorem test_TRANSACT_w16 :
    asks (exec (.transact 0 0xC4001234) (idle [] [.answer 0xABCD5678])) (fun t =>
      t.hist == [.frame .w16 0x1234 (.rxOk 0x5678)]) = true := by decide +kernel

/-- R138's example. -/
theorem test_WRITE_REG_example :
    asks (exec (.writeReg 2 0) (idle [] [.answer 0xFF])) (fun t =>
      t.hist == [.frame .w24 0x050000 (.rxOk 0xFF)] && t.ftReply == some ⟨.ok, 0⟩) = true := by decide +kernel

/-- R262: in auto-sequence mode a no-op moves to the next channel, and past channel 7 to the first. -/
theorem test_W_NO_OP_next :
    asks (exec .wNoOp { idle [] [.device 0] with dev := devAuto }) (fun t =>
      t.dev.mode == .auto 1 && t.dev.pending == some 0x1000 && t.ftReply == some ⟨.ok, 0x1111⟩) = true := by
  decide +kernel

theorem test_W_NO_OP_wraps :
    asks (exec .wNoOp { idle [] [.device 0] with dev := { devAuto with mode := .auto 7 } }) (fun t =>
      t.dev.mode == .auto 0) = true := by decide +kernel

/-- R253: the registers return to power-up. -/
theorem test_W_RST_registers :
    asks (exec .wRst { idle [] [.answer 0] with dev := { devAuto with pr := [(5, 3), (6, 1)] } }) (fun t =>
      t.dev.pr == [] && t.dev.pending == none) = true := by decide +kernel

/-- R254, R262: the restart goes to the lowest channel in sequence. -/
theorem test_W_AUTO_RST_lowest :
    asks (exec .wAutoRst { idle [] [.answer 0] with dev := { devAuto with pr := [(1, 0xFE), (2, 0x02)] } }) (fun t =>
      t.dev.mode == .auto 2) = true := by decide +kernel

/-- R255, R251: a select frame, and the no-op that fetches its result. -/
theorem test_W_MAN_CH_lag :
    asks (exec .wManCh5 { idle [] [.answer 0, .device 0xFFFFFFFF] with dev := devAuto }) (fun t =>
      t.dev.mode == .man 5 && asks (exec .wNoOp t) (fun u => u.ftReply == some ⟨.ok, 0xFFFF5000⟩)) = true := by
  decide +kernel

/-- R256, R262: a register write. -/
theorem test_W_WR_store :
    asks (exec (.wWr 0x7F 0xA5) { idle [] [.answer 0] with dev := devAuto }) (fun t =>
      t.dev.pr == [(0x7F, 0xA5)] && t.dev.pending == none && t.dev.mode == .auto 0) = true := by decide +kernel

/-- R258: the highest range register, through the row's own constructor. -/
theorem test_W_WR_RANGE7_store :
    asks (exec (.wWrRange7 6) (idle [] [.answer 0])) (fun t =>
      t.dev.pr == [(0x0C, 6)] && t.hist == [.frame .w24 0x190600 (.rxOk 0)]) = true := by decide +kernel

/-- R133: a bus that is not ready. -/
theorem test_W_WR_AUTO_SEQ_EN_refused :
    asks (exec .wWrAutoSeqEn (idle [] [.notReady])) (fun t =>
      t.hist == [.refused .w24 0x03FF00] && t.ftReply == some ⟨.busFault, 0⟩) = true := by decide +kernel

/-- R116: a sequence of the owner stops at the first response that is not `Ok`, and reports it. -/
theorem test_INIT_stops :
    asks (step { State.reset with curStatus := .busFault, inbox := [.script false [0x20000000], .report] }) (fun t =>
      t.inbox == [.report] && t.sched.reports == [.initFailed .busFault]) = true := by decide +kernel

/-- R322: `sleepMicros` and `sleepUntil` return no earlier than asked, and may return later. -/
theorem test_sleep :
    asks (step { State.reset with now := 10, inbox := [.sleepMicros 5 12] }) (fun t =>
      t.now == 15 && (State.sleepUntil t 20 25).now == 25) = true := by decide +kernel

/-- The host's two functions: the decoder's reading of a table word, and the step that runs it. -/
theorem test_decodeTableWord_request : decodeTableWord 40 0x500000200 = some (.writeReg 2 0) := by decide +kernel

theorem test_withFetchWord_runs :
    asks (step (State.reset.withFetchWord 32 0x40030000)) (fun t => t.pResp == some ⟨.ok, 0, 0⟩ && t.inbox == []) =
      true := by decide +kernel

/-! ## Witnesses: for each statement, a state that meets its premises -/

theorem witness_DecodeOfEncodeIsTheInstruction :
    Config.default.addressesOk = true ∧ (Instr.wWr 0x01 0x0F).wellFormed Config.default = true := by decide

theorem witness_EncodeOfDecodeIsThePacket :
    decode Config.default (.frame .w24 0x0BFE00) = .ok (.wWrRange0 0xFE) ∧ Config.default.addressesOk = true :=
  ⟨rfl, by decide⟩

/-- One word of each kind of illegal encoding, at a boundary of its field. -/
theorem witness_illegalEncoding :
    illegalEncoding 0x00000000 ∧ illegalEncoding 0xA0000000 ∧ illegalEncoding 0x11000000 ∧
      illegalEncoding 0x10800000 ∧ illegalEncoding 0x40008000 ∧ illegalEncoding 0x30000001 := by
  refine ⟨Or.inl (by decide), Or.inr (Or.inl (by decide)), Or.inr (Or.inr (Or.inl (by decide))),
    Or.inr (Or.inr (Or.inr (Or.inl (by decide)))), Or.inr (Or.inr (Or.inr (Or.inr (Or.inl (by decide))))),
    Or.inr (Or.inr (Or.inr (Or.inr (Or.inr (by decide)))))⟩

theorem witness_IllegalWordsAreAnswered :
    ∃ (s u : State) (l l' : List Input),
      s.cfg.wf = true ∧ s.busy = false ∧ s.inbox = .portP 0xA0000000 :: l ∧
      u.cfg.wf = true ∧ u.inbox = .portC 0xA0000000 :: l' ∧ illegalEncoding 0xA0000000 :=
  ⟨idle [.portP 0xA0000000] [], idle [.portC 0xA0000000] [], [], [], by decide, by decide, rfl, by decide, rfl,
    witness_illegalEncoding.2.1⟩

theorem witness_PortCRefusesOtherOperations :
    ∃ (s : State) (l : List Input), s.cfg.wf = true ∧ s.inbox = .portC 0x70000000 :: l ∧
      decodeHost 0x70000000 = .ok .scanAll ∧ Instr.scanAll ≠ .getCodes ∧
      ∀ code rg, Instr.scanAll ≠ .toVoltage code rg :=
  ⟨idle [.portC 0x70000000] [], [], by decide, rfl, rfl, by decide, fun _ _ => by simp⟩

theorem witness_StepRunsTheDecodedInstruction :
    (∃ (s : State) (l : List Input), s.cfg.wf = true ∧ s.busy = false ∧ s.inbox = .portP 0x40070000 :: l ∧
      decode s.cfg (.host 0x40070000) = .ok (.getRange 7)) ∧
    (∃ (s : State) (l : List Input), s.cfg.wf = true ∧ s.inbox = .portC 0x80000000 :: l ∧
      decode s.cfg (.host 0x80000000) = .ok .getCodes) ∧
    (∃ (s : State) (l : List Input), s.cfg.wf = true ∧ s.busy = false ∧ s.inbox = .request 0x500000200 :: l ∧
      decode s.cfg (.request 0x500000200) = .ok (.writeReg 2 0)) ∧
    (∃ (s : State) (l : List Input), s.cfg.wf = true ∧ s.busy = false ∧
      s.inbox = .frame .w24 0x190600 :: l ∧ decode s.cfg (.frame .w24 0x190600) = .ok (.wWrRange7 6)) :=
  ⟨⟨idle [.portP 0x40070000] [], [], by decide, by decide, rfl, rfl⟩,
    ⟨idle [.portC 0x80000000] [], [], by decide, rfl, rfl⟩,
    ⟨idle [.request 0x500000200] [], [], by decide, by decide, rfl, rfl⟩,
    ⟨idle [.frame .w24 0x190600] [], [], by decide, by decide, rfl, rfl⟩⟩

/-- SEQ waits for the first bit of a POWER_ON_ALL's frame, which BUS has not supplied. -/
def waiting : State :=
  { State.reset with
    busy := true, curCw := 0x20000000, seqK := 1,
    ft := Ft.reset.accept .writeReg .w24 0x050000 }

theorem witness_BusyPortPAcceptsNothing :
    ∃ s t : State, s.busy = true ∧ s.inbox = [.portP 0x70000000] ∧ step s = .next t :=
  ⟨{ waiting with inbox := [.portP 0x70000000] }, _, rfl, rfl, rfl⟩

theorem witness_BrokenParametersAreRefused :
    ∃ s : State, s.cfg.timesOk = true ∧ ¬(s.cfg.regRangeBase.toNat + 7 ≤ 0x7F) :=
  ⟨{ State.reset with cfg := { Config.default with regRangeBase := 0x79 } }, by decide, by decide⟩

/-- The premise of ResetMeetsTheInvariant. -/
theorem witness_ResetMeetsTheInvariant : Memory.wf State.reset.cfg State.reset.dev.pr = true := by decide

/-- The invariant holds of a state in the middle of an operation. -/
theorem waiting_inv : waiting.Inv := by
  refine ⟨by decide, by decide, by decide, by decide, by decide, by decide, by decide, ?_, by decide, by decide,
    by decide⟩
  intro _ _; exact ⟨by decide, by decide, by decide, by decide⟩

/-- The same with its frame still to be sent. -/
theorem resumable_inv : ({ waiting with ft := Ft.reset } : State).Inv := by
  refine ⟨by decide, by decide, by decide, by decide, by decide, by decide, by decide, ?_, by decide, by decide,
    by decide⟩
  intro _ _; exact ⟨by decide, by decide, by decide, by decide⟩

theorem witness_StepKeepsTheInvariant :
    ∃ s t : State, s.Inv ∧ s.cfg.wf = true ∧ step s = .next t :=
  ⟨waiting, _, waiting_inv, by decide, rfl⟩

theorem witness_InvariantStepsAnswerNext : ∃ s : State, s.Inv ∧ s.cfg.wf = true ∧ s.busy = true :=
  ⟨waiting, waiting_inv, by decide, rfl⟩

theorem witness_ParametersAndStrapsAreConstant :
    (∃ (s t : State) (k : Straps), step s = .next t ∧ s.inbox = [.rst k] ∧ t.straps ≠ s.straps) ∧
    (∃ (s t : State) (k : Straps), step s = .next t ∧ s.slots = [.rst k] ∧ t.straps ≠ s.straps) :=
  ⟨⟨idle [.rst ⟨.autoSeq, .hwCs, .offsetBinary⟩] [], _, _, rfl, rfl, by decide⟩,
    ⟨{ waiting with slots := [.rst ⟨.autoSeq, .hwCs, .offsetBinary⟩] }, _, _, rfl, rfl, by decide⟩⟩

/-- A step that adds events: the premise of HistoryOnlyGrows. -/
theorem witness_HistoryOnlyGrows : ∃ s t : State, step s = .next t ∧ s.hist ≠ t.hist :=
  ⟨idle [.portP 0x40070000] [], _, rfl, by decide +kernel⟩

/-- Two states that differ in the words due on port C. -/
theorem witness_PortCIsInvisibleToTheOwner :
    ∃ s u : State, s.bufLock = .free ∧ s.NoRst ∧ u.NoRst ∧ s.ownerView = u.ownerView ∧ s.slots ≠ u.slots :=
  ⟨waiting, { waiting with slots := [.before [0x80000000, 0x90004000], .quiet, .after [0x80000000]] },
    rfl, noRst rfl, fun _ hk => by simp at hk, rfl, by decide⟩

theorem witness_PortCIsAlwaysServed :
    ∃ (s : State) (l : List Input), s.cfg.wf = true ∧ s.bufLock = .free ∧ s.busy = true ∧
      s.inbox = .portC 0x80000000 :: l :=
  ⟨{ waiting with inbox := [.portC 0x80000000] }, [], by decide, rfl, rfl, rfl⟩

theorem witness_SnapshotsAreNeverTorn :
    ∃ s t : State, s.NoRst ∧ step s = .next t ∧
      Event.snapshot .P s.lanes s.valid ∈ t.hist.drop s.hist.length :=
  ⟨idle [.portP 0x80000000] [], _, noRst rfl, rfl, List.mem_cons_of_mem _ (List.mem_cons_self ..)⟩

/-- Reset between two steps, in the stead of a step of FT, in the stead of a micro-step that an operation
goes on with, and of the first micro-step of one just accepted. -/
theorem witness_HardwareResetLeavesTheResetValues :
    (∃ (s : State) (k : Straps) (l : List Input), s.cfg.wf = true ∧ s.busy = true ∧ s.inbox = .rst k :: l) ∧
    (∃ (s : State) (k : Straps) (l : List Slot), s.Inv ∧ s.cfg.wf = true ∧ s.busy = true ∧ s.inbox = [] ∧
      s.slots = .rst k :: l ∧ s.ft.state = .shift) ∧
    (∃ (s : State) (k : Straps) (l : List Slot), s.Inv ∧ s.cfg.wf = true ∧ s.busy = true ∧ s.inbox = [] ∧
      s.slots = .rst k :: l ∧ s.ft.state = .idle) ∧
    (∃ (s : State) (cw : HostWord) (k : Straps) (l : List Slot), encode s.cfg .scanAll = .host cw ∧
      s.port = .P ∧ s.ft.state = .idle ∧ s.slots = .rst k :: l) :=
  ⟨⟨{ waiting with inbox := [.rst ⟨.autoSeq, .swGpioCs, .offsetBinary⟩] }, _, [], by decide, rfl, rfl⟩,
    ⟨{ waiting with slots := [.rst Straps.default] }, _, [], waiting_inv, by decide, rfl, rfl, rfl, rfl⟩,
    ⟨{ waiting with ft := Ft.reset, slots := [.rst Straps.default] }, _, [], resumable_inv,
      by decide, rfl, rfl, rfl, rfl⟩,
    ⟨{ ready .manual false [] with slots := [.rst Straps.default] }, _, _, [], rfl, rfl, rfl, rfl⟩⟩

theorem idle_inv : (idle [.portP 0x40070000] []).Inv := by
  refine ⟨by decide, by decide, by decide, by decide, by decide, by decide, by decide, ?_, by decide, by decide,
    by decide⟩
  intro h; exact absurd h (by decide)

theorem witness_QuietAfterEveryResponse :
    ∃ (s t : State) (r : Response), s.Inv ∧ step s = .next t ∧ t.pResp = some r :=
  ⟨_, _, _, idle_inv, rfl, rfl⟩

/-! Operations of port P: the premises on the state, then each clause's own. -/

theorem witness_ResetRunsItsStepList :
    (∃ (s : State) (rx₁ rx₂ : BitVec 32) (d : Dev) (b : List BusAnswer),
      s.port = .P ∧ s.ft.state = .idle ∧ s.bufLock = .free ∧ s.NoRst ∧
      exchange s.cfg s.dev (resetFrames s.cfg) s.busIn = some ([rx₁, rx₂], d, b)) ∧
    (∃ (s : State) (a : BusAnswer) (b : List BusAnswer),
      s.port = .P ∧ s.ft.state = .idle ∧ s.bufLock = .free ∧ s.NoRst ∧ s.busIn = a :: b ∧ a.isFault = true) ∧
    (∃ (s : State) (a₁ : BusAnswer) (rx₁ : BitVec 32) (a₂ : BusAnswer) (b : List BusAnswer),
      s.port = .P ∧ s.ft.state = .idle ∧ s.bufLock = .free ∧ s.NoRst ∧ s.busIn = a₁ :: a₂ :: b ∧
      a₁.word s.dev .w32 = some rx₁ ∧ a₂.isFault = true) :=
  ⟨⟨idle [] [.answer 7, .device 9], _, _, _, _, rfl, rfl, rfl, noRst rfl, rfl⟩,
    ⟨idle [] [.notReady], _, _, rfl, rfl, rfl, noRst rfl, rfl, rfl⟩,
    ⟨idle [] [.answer 7, .fault 0 0 true], _, _, _, _, rfl, rfl, rfl, noRst rfl, rfl, rfl, rfl⟩⟩

theorem witness_PowerOnAllRunsItsStepList :
    (∃ (s : State) (a : BusAnswer) (b : List BusAnswer) (rx : BitVec 32),
      s.port = .P ∧ s.ft.state = .idle ∧ s.bufLock = .free ∧ s.NoRst ∧ s.busIn = a :: b ∧ a.word s.dev .w24 = some rx) ∧
    (∃ (s : State) (a : BusAnswer) (b : List BusAnswer),
      s.port = .P ∧ s.ft.state = .idle ∧ s.bufLock = .free ∧ s.NoRst ∧ s.busIn = a :: b ∧ a.isFault = true) :=
  ⟨⟨idle [] [.answer 7], _, _, _, rfl, rfl, rfl, noRst rfl, rfl, rfl⟩, ⟨idle [] [.fault 0 23 false], _, _, rfl, rfl, rfl, noRst rfl, rfl, rfl⟩⟩

theorem witness_SetRangeRunsItsStepList :
    (∃ s : State, s.port = .P ∧ s.ft.state = .idle ∧ s.bufLock = .free ∧ s.NoRst ∧
      (7 < (8#8).toNat ∨ 6 < (0#8).toNat) ∧ (7 < (7#8).toNat ∨ 6 < (7#8).toNat)) ∧
    (∃ (s : State) (c : Chan) (a : BusAnswer) (b : List BusAnswer) (rx : BitVec 32),
      s.port = .P ∧ s.ft.state = .idle ∧ s.bufLock = .free ∧ s.NoRst ∧ (7#8).toNat = c.val ∧ (6#8).toNat ≤ 6 ∧
      s.busIn = a :: b ∧ a.word s.dev .w24 = some rx) ∧
    (∃ (s : State) (c : Chan) (a : BusAnswer) (b : List BusAnswer),
      s.port = .P ∧ s.ft.state = .idle ∧ s.bufLock = .free ∧ s.NoRst ∧ (0#8).toNat = c.val ∧ (0#8).toNat ≤ 6 ∧
      s.busIn = a :: b ∧ a.isFault = true) :=
  ⟨⟨State.reset, rfl, rfl, rfl, noRst rfl, by decide, by decide⟩,
    ⟨idle [] [.answer 7], 7, _, _, _, rfl, rfl, rfl, noRst rfl, rfl, by decide, rfl, rfl⟩,
    ⟨idle [] [.notReady], 0, _, _, rfl, rfl, rfl, noRst rfl, rfl, by decide, rfl, rfl⟩⟩

theorem witness_GetRangeReturnsTheRangeSet :
    (∃ (c : Chan) (s t u v : State) (is : List Instr), (7#8).toNat = c.val ∧ s.port = .P ∧ s.NoRst ∧
      exec (.setRange 7 6) s = .next t ∧ t.busy = false ∧ t.curStatus = .ok ∧
      (∀ i ∈ is, i ≠ .reset ∧ ∀ rg', i ≠ .setRange 7 rg') ∧ is ≠ [] ∧ execAll is t = some u ∧
      exec (.getRange 7) u = .next v ∧ v.busy = false) ∧
    (∃ (c : Chan) (s t u v : State) (is : List Instr), (0#8).toNat = c.val ∧ s.port = .P ∧ s.NoRst ∧
      exec (.setRange 0 6) s = .next t ∧ t.busy = false ∧ t.curStatus = .busFault ∧
      (∀ i ∈ is, i ≠ .reset ∧ ∀ rg', i ≠ .setRange 0 rg') ∧ execAll is t = some u ∧
      exec (.getRange 0) u = .next v ∧ v.busy = false) :=
  ⟨⟨7, idle [] [.answer 7, .answer 8], _, _, _, [.setRange 6 1],
      rfl, rfl, noRst rfl, rfl, rfl, rfl, by simp, by simp, rfl, rfl, rfl⟩,
    ⟨0, idle [] [.notReady], _, _, _, [], rfl, rfl, noRst rfl, rfl, rfl, rfl, by simp, rfl, rfl, rfl⟩⟩

theorem witness_GetRangeReadsTheRecord :
    ∃ (s t : State) (c : Chan), s.port = .P ∧ s.ft.state = .idle ∧ s.bufLock = .free ∧ s.NoRst ∧
      7 < (8#8).toNat ∧ (7#8).toNat = c.val ∧ exec .reset s = .next t :=
  ⟨State.reset, _, 7, rfl, rfl, rfl, noRst rfl, by decide, rfl, rfl⟩

theorem witness_EnterScanRunsItsStepList :
    (∃ s : State, s.port = .P ∧ s.ft.state = .idle ∧ s.bufLock = .free ∧ s.NoRst ∧ s.drvState = .uninitialized) ∧
    (∃ s : State, s.port = .P ∧ s.ft.state = .idle ∧ s.bufLock = .free ∧ s.NoRst ∧ s.drvState ≠ .uninitialized ∧
      s.straps.strategy = .manual) ∧
    (∃ (s : State) (rx₁ rx₂ : BitVec 32) (d : Dev) (b : List BusAnswer),
      s.port = .P ∧ s.ft.state = .idle ∧ s.bufLock = .free ∧ s.NoRst ∧ s.drvState ≠ .uninitialized ∧
      s.straps.strategy = .autoSeq ∧
      exchange s.cfg s.dev (enterScanFrames s.cfg) s.busIn = some ([rx₁, rx₂], d, b)) ∧
    (∃ (s : State) (a : BusAnswer) (b : List BusAnswer),
      s.port = .P ∧ s.ft.state = .idle ∧ s.bufLock = .free ∧ s.NoRst ∧ s.drvState ≠ .uninitialized ∧
      s.straps.strategy = .autoSeq ∧ s.busIn = a :: b ∧ a.isFault = true) ∧
    (∃ (s : State) (a₁ : BusAnswer) (rx₁ : BitVec 32) (a₂ : BusAnswer) (b : List BusAnswer),
      s.port = .P ∧ s.ft.state = .idle ∧ s.bufLock = .free ∧ s.NoRst ∧ s.drvState ≠ .uninitialized ∧
      s.straps.strategy = .autoSeq ∧ s.busIn = a₁ :: a₂ :: b ∧ a₁.word s.dev .w24 = some rx₁ ∧
      a₂.isFault = true) :=
  ⟨⟨State.reset, rfl, rfl, rfl, noRst rfl, rfl⟩, ⟨configuring .manual [], rfl, rfl, rfl, noRst rfl, by decide, rfl⟩,
    ⟨configuring .autoSeq [.answer 7, .answer 9], _, _, _, _, rfl, rfl, rfl, noRst rfl, by decide, rfl, rfl⟩,
    ⟨ready .autoSeq true [.notReady], _, _, rfl, rfl, rfl, noRst rfl, by decide, rfl, rfl, rfl⟩,
    ⟨configuring .autoSeq [.answer 7, .fault 0 31 true], _, _, _, _, rfl, rfl, rfl, noRst rfl, by decide, rfl, rfl, rfl, rfl⟩⟩

theorem witness_ReadsAreRefusedInOrder :
    (∃ s : State, s.port = .P ∧ s.ft.state = .idle ∧ s.bufLock = .free ∧ s.NoRst ∧ s.drvState ≠ .ready) ∧
    (∃ s : State, s.port = .P ∧ s.ft.state = .idle ∧ s.bufLock = .free ∧ s.NoRst ∧ s.drvState = .ready ∧ 7 < (8#8).toNat) :=
  ⟨⟨configuring .manual [], rfl, rfl, rfl, noRst rfl, by decide⟩, ⟨ready .manual false [], rfl, rfl, rfl, noRst rfl, rfl, by decide⟩⟩

theorem witness_ReadChannelReturnsTheSecondResult :
    ∃ (s : State) (c : Chan) (rx₁ rx₂ : BitVec 32) (d : Dev) (b : List BusAnswer),
      s.port = .P ∧ s.ft.state = .idle ∧ s.bufLock = .free ∧ s.NoRst ∧ s.drvState = .ready ∧ (7#8).toNat = c.val ∧
      exchange s.cfg s.dev (readChFrames s.cfg c) s.busIn = some ([rx₁, rx₂], d, b) :=
  ⟨ready .autoSeq true [.answer 7, .answer 9], 7, _, _, _, _, rfl, rfl, rfl, noRst rfl, rfl, rfl, rfl⟩

theorem witness_FaultedReadChannelIsMissing :
    (∃ (s : State) (c : Chan) (a : BusAnswer) (b : List BusAnswer),
      s.port = .P ∧ s.ft.state = .idle ∧ s.bufLock = .free ∧ s.NoRst ∧ s.drvState = .ready ∧ (0#8).toNat = c.val ∧
      s.busIn = a :: b ∧ a.isFault = true) ∧
    (∃ (s : State) (c : Chan) (a₁ : BusAnswer) (rx₁ : BitVec 32) (a₂ : BusAnswer) (b : List BusAnswer),
      s.port = .P ∧ s.ft.state = .idle ∧ s.bufLock = .free ∧ s.NoRst ∧ s.drvState = .ready ∧ (7#8).toNat = c.val ∧
      s.busIn = a₁ :: a₂ :: b ∧ a₁.word s.dev .w32 = some rx₁ ∧ a₂.isFault = true) :=
  ⟨⟨ready .manual false [.notReady], 0, _, _, rfl, rfl, rfl, noRst rfl, rfl, rfl, rfl, rfl⟩,
    ⟨ready .manual false [.answer 7, .notReady], 7, _, _, _, _, rfl, rfl, rfl, noRst rfl, rfl, rfl, rfl, rfl, rfl⟩⟩

theorem witness_ManualPassCapturesEightResults :
    ∃ (s : State) (rs : List (BitVec 32)) (d : Dev) (b : List BusAnswer),
      s.port = .P ∧ s.ft.state = .idle ∧ s.bufLock = .free ∧ s.NoRst ∧ s.drvState = .ready ∧
      s.straps.strategy = .manual ∧
      exchange s.cfg s.dev (manualFrames s.cfg) s.busIn = some (rs, d, b) :=
  ⟨ready .manual false (answers 0 9), _, _, _, rfl, rfl, rfl, noRst rfl, rfl, rfl, rfl⟩

theorem witness_AutoPassCapturesEightResults :
    (∃ (s : State) (rs : List (BitVec 32)) (d : Dev) (b : List BusAnswer),
      s.port = .P ∧ s.ft.state = .idle ∧ s.bufLock = .free ∧ s.NoRst ∧ s.drvState = .ready ∧
      s.straps.strategy = .autoSeq ∧ s.autoArmed = true ∧
      exchange s.cfg s.dev (autoFrames s.cfg) s.busIn = some (rs, d, b)) ∧
    (∃ (s : State) (rs : List (BitVec 32)) (d : Dev) (b : List BusAnswer),
      s.port = .P ∧ s.ft.state = .idle ∧ s.bufLock = .free ∧ s.NoRst ∧ s.drvState = .ready ∧
      s.straps.strategy = .autoSeq ∧ s.autoArmed = false ∧
      exchange s.cfg s.dev (cmdReq s.cfg.opcAutoRst :: autoFrames s.cfg) s.busIn = some (rs, d, b)) :=
  ⟨⟨ready .autoSeq true (answers 1 8), _, _, _, rfl, rfl, rfl, noRst rfl, rfl, rfl, rfl, rfl⟩,
    ⟨ready .autoSeq false (answers 0 9), _, _, _, rfl, rfl, rfl, noRst rfl, rfl, rfl, rfl, rfl⟩⟩

/-- A fault at the first frame of a pass, and at the last one, under each strategy. -/
theorem witness_FaultedPassCommitsWhatItCaptured :
    (∃ (s : State) (rs : List (BitVec 32)) (d : Dev) (a : BusAnswer) (b : List BusAnswer) (f : FrameReq),
      s.port = .P ∧ s.ft.state = .idle ∧ s.bufLock = .free ∧ s.NoRst ∧ s.drvState = .ready ∧ s.passFrames[0]? = some f ∧
      exchange s.cfg s.dev (s.passFrames.take 0) s.busIn = some (rs, d, a :: b) ∧ a.isFault = true) ∧
    (∃ (s : State) (rs : List (BitVec 32)) (d : Dev) (a : BusAnswer) (b : List BusAnswer) (f : FrameReq),
      s.port = .P ∧ s.ft.state = .idle ∧ s.bufLock = .free ∧ s.NoRst ∧ s.drvState = .ready ∧ s.passFrames[8]? = some f ∧
      exchange s.cfg s.dev (s.passFrames.take 8) s.busIn = some (rs, d, a :: b) ∧ a.isFault = true) ∧
    (∃ (s : State) (rs : List (BitVec 32)) (d : Dev) (a : BusAnswer) (b : List BusAnswer) (f : FrameReq),
      s.port = .P ∧ s.ft.state = .idle ∧ s.bufLock = .free ∧ s.NoRst ∧ s.drvState = .ready ∧ s.passFrames[7]? = some f ∧
      exchange s.cfg s.dev (s.passFrames.take 7) s.busIn = some (rs, d, a :: b) ∧ a.isFault = true) :=
  ⟨⟨ready .manual false [.notReady], _, _, _, _, _, rfl, rfl, rfl, noRst rfl, rfl, rfl, rfl, rfl⟩,
    ⟨ready .manual false (answers 0 8 ++ [.notReady]), _, _, _, _, _, rfl, rfl, rfl, noRst rfl, rfl, rfl, rfl, rfl⟩,
    ⟨ready .autoSeq true (answers 1 7 ++ [.notReady]), _, _, _, _, _, rfl, rfl, rfl, noRst rfl, rfl, rfl, rfl, rfl⟩⟩

theorem witness_GetCodesAnswersTheBuffer :
    (∃ s : State, s.port = .P ∧ s.ft.state = .idle ∧ s.bufLock = .free ∧ s.NoRst) ∧ (∃ s : State, s.port = .C) ∧
    (∃ (s : State) (c : Chan), s.valid.getLsbD c.val = true) :=
  ⟨⟨State.reset, rfl, rfl, rfl, noRst rfl⟩, ⟨{ State.reset with port := .C }, rfl⟩, ⟨{ State.reset with valid := 0x80 }, 7, rfl⟩⟩

/-- A bipolar, a unipolar and an out-of-range code. -/
theorem witness_ToVoltageAnswersTheVoltage :
    (∃ (r : Nat) (fs : Rat), r = (if (4#8).toNat ≤ 6 then (4#8).toNat else 0) ∧ r ≤ 4 ∧
      some fs = [1024 / 100, 512 / 100, 256 / 100, 128 / 100, 64 / 100, 1024 / 100, 512 / 100][r]?) ∧
    (∃ (r : Nat) (fs : Rat), r = (if (6#8).toNat ≤ 6 then (6#8).toNat else 0) ∧ ¬r ≤ 4 ∧
      some fs = [1024 / 100, 512 / 100, 256 / 100, 128 / 100, 64 / 100, 1024 / 100, 512 / 100][r]?) ∧
    (∃ (r : Nat) (fs : Rat), r = (if (7#8).toNat ≤ 6 then (7#8).toNat else 0) ∧ r = 0 ∧
      some fs = [1024 / 100, 512 / 100, 256 / 100, 128 / 100, 64 / 100, 1024 / 100, 512 / 100][r]?) ∧
    State.reset.port = .P ∧ State.reset.ft.state = .idle ∧ State.reset.bufLock = .free ∧ State.reset.NoRst ∧
    State.reset.straps.coding = .twosComplement :=
  ⟨⟨4, 64 / 100, rfl, by decide, rfl⟩, ⟨6, 512 / 100, rfl, by decide, rfl⟩, ⟨0, 1024 / 100, rfl, rfl, rfl⟩,
    rfl, rfl, rfl, noRst rfl, rfl⟩

theorem witness_OutOfRangeCodeClamps :
    7 ≤ (7#8).toNat ∧ State.reset.ft.state = .idle ∧ State.reset.NoRst ∧ State.reset.port = .P :=
  ⟨by decide, rfl, noRst rfl, rfl⟩

theorem witness_VoltageStaysInRange : cvtRange 4 ≤ 4 ∧ 4 < cvtRange 5 ∧ cvtRange 7 ≤ 4 := by decide

theorem witness_OffsetBinaryFlipsTheTopBit : cvtRange 4 ≤ 4 ∧ cvtRange 255 ≤ 4 ∧ 4 < cvtRange 5 ∧ 4 < cvtRange 6 := by
  decide

theorem witness_ConverterLaws :
    (4#8).toNat ≤ 4 ∧ (5#8).toNat = 5 ∧ (6#8).toNat = 6 ∧ 6 < (7#8).toNat ∧
      (0x8000#16).toInt < (0x7FFF#16).toInt ∧ (0x7FFF#16).toNat < (0x8000#16).toNat := by decide

theorem witness_TransactExchangesOneFrame :
    (∃ (s : State) (a : BusAnswer) (b : List BusAnswer) (rx : BitVec 32),
      s.busIn = a :: b ∧ a.word s.dev .w16 = some rx ∧ a.word s.dev .w24 = some rx ∧ a.word s.dev .w32 = some rx) ∧
    (∃ (s : State) (b : List BusAnswer), s.busIn = .notReady :: b) ∧
    (∃ (s : State) (b : List BusAnswer), s.busIn = .fault 5 15 true :: b) ∧
    (∃ (s : State) (b : List BusAnswer), s.busIn = .fault 5 99 false :: b) :=
  ⟨⟨idle [] [.answer 7], _, _, _, rfl, rfl, rfl, rfl⟩, ⟨idle [] [.notReady], _, rfl⟩,
    ⟨idle [] [.fault 5 15 true], _, rfl⟩, ⟨idle [] [.fault 5 99 false], _, rfl⟩⟩

/-- The three illegal requests of R107, each with one bit or one field wrong. -/
theorem witness_IllegalRequestsTouchNothing :
    (∃ (s : State) (l : List Input), s.cfg.wf = true ∧ s.busy = false ∧ s.inbox = .request 0x300000000 :: l ∧
      (0x300000000 : RequestWord).extractLsb' 34 1 = (0 : BitVec 1) ∧
      (0x300000000 : RequestWord).extractLsb' 32 2 = (3 : BitVec 2)) ∧
    (0x600000200 : RequestWord).extractLsb' 34 1 = (1 : BitVec 1) ∧
    (0x600000200 : RequestWord).extractLsb' 32 2 ≠ (1 : BitVec 2) ∧
    (0x500008000 : RequestWord).extractLsb' 15 17 ≠ (0 : BitVec 17) :=
  ⟨⟨idle [.request 0x300000000] [], _, by decide, by decide, rfl, by decide, by decide⟩, by decide, by decide, by decide⟩

theorem witness_WriteRegisterSendsOneFrame :
    (∃ (s : State) (x : BusAnswer) (b : List BusAnswer) (rx : BitVec 32),
      s.busIn = x :: b ∧ x.word s.dev .w24 = some rx) ∧
    (∃ (s : State) (x : BusAnswer) (b : List BusAnswer), s.busIn = x :: b ∧ x.isFault = true) :=
  ⟨⟨idle [] [.device 7], _, _, _, rfl, rfl⟩, ⟨idle [] [.notReady], _, _, rfl, rfl⟩⟩

/-- BUS takes the frame after `pre` bit by bit, from `l`, under `k`. -/
def bitwise (k : CsImpl) (pre : List BusAnswer) (l : List LineSample) : State :=
  { idle [] (pre ++ [.bitwise]) with straps := { Straps.default with csImpl := k }, lineIn := l }

/-- The premises of `EngineMatches` on a frame of a bench, and on the frame of a SEQ operation. -/
def meetsBench (s : State) (k : CsImpl) (w : Width) (i : Instr) (samples : List LineSample) : Prop :=
  s.cfg.wf = true ∧ s.ft.state = .idle ∧ s.busy = false ∧ s.bufLock = .free ∧ s.NoRst ∧ s.inbox = [] ∧
    s.straps.csImpl = k ∧ benchWidth s.cfg i = some w ∧ s.busIn = .bitwise :: [] ∧ s.lineIn = samples ++ []

def meetsSeq (s s₁ : State) (k : CsImpl) (w : Width) (i : Instr) (pre : List BusAnswer) (samples : List LineSample) :
    Prop :=
  s.cfg.wf = true ∧ s.ft.state = .idle ∧ s.busy = false ∧ s.bench = false ∧ s.bufLock = .free ∧ s.NoRst ∧
    s.inbox = [] ∧ s.pResp = none ∧ s.ftReply = none ∧ s.straps.csImpl = k ∧ s.busIn = pre ++ .bitwise :: [] ∧
    s.lineIn = samples ++ [] ∧ exec i s = .next s₁ ∧ s₁.bench = false ∧ s₁.ft.state = .shift ∧ s₁.ft.w = w ∧
    s₁.busIn = []

/-- A frame of a bench without gaps; one with gaps under SwGpioCs; the second frame of a RESET. -/
theorem witness_BitEngineRefinesTheTransaction :
    (∃ s, meetsBench s .hwCs .w16 (.transact 0 0x1234) (wireSamples .w16 0xABCD (fun _ => 0))) ∧
    (∃ s, meetsBench s .swGpioCs .w24 (.writeReg 2 0) (wireSamples .w24 0xABCD (fun k => k))) ∧
    (∃ s s₁, meetsSeq s s₁ .swGpioCs .w24 .reset [.answer 7] (wireSamples .w24 0xABCD (fun k => k))) :=
  ⟨⟨bitwise .hwCs [] (wireSamples .w16 0xABCD (fun _ => 0) ++ []),
      by decide, rfl, rfl, rfl, noRst rfl, rfl, rfl, rfl, rfl, rfl⟩,
    ⟨bitwise .swGpioCs [] (wireSamples .w24 0xABCD (fun k => k) ++ []),
      by decide, rfl, rfl, rfl, noRst rfl, rfl, rfl, rfl, rfl, rfl⟩,
    ⟨bitwise .swGpioCs [.answer 7] (wireSamples .w24 0xABCD (fun k => k) ++ []), _,
      by decide, rfl, rfl, rfl, rfl, noRst rfl, rfl, rfl, rfl, rfl, rfl, rfl, rfl, rfl, rfl, rfl, rfl⟩⟩

/-- An error at the first bit and at the last, and one in the gap before bit 8. -/
theorem witness_BitEngineRefinesTheFault :
    (0 < Width.w32.bits ∧ ∃ s, meetsBench s .hwCs .w32 .wNoOp (faultSamples .w32 0xABCD (fun _ => 0) 0 true)) ∧
    (31 < Width.w32.bits ∧ ∃ s s₁, meetsSeq s s₁ .swGpioCs .w32 .reset []
      (faultSamples .w32 0xABCD (fun k => k) 31 false)) ∧
    (8 < Width.w24.bits ∧ ∃ s s₁, meetsSeq s s₁ .swGpioCs .w24 .reset [.answer 7]
      (gapFaultSamples .w24 0xABCD (fun k => k) 8 true)) :=
  ⟨⟨by decide, bitwise .hwCs [] (faultSamples .w32 0xABCD (fun _ => 0) 0 true ++ []),
      by decide, rfl, rfl, rfl, noRst rfl, rfl, rfl, rfl, rfl, rfl⟩,
    ⟨by decide, bitwise .swGpioCs [] (faultSamples .w32 0xABCD (fun k => k) 31 false ++ []), _,
      by decide, rfl, rfl, rfl, rfl, noRst rfl, rfl, rfl, rfl, rfl, rfl, rfl, rfl, rfl, rfl, rfl, rfl⟩,
    ⟨by decide, bitwise .swGpioCs [.answer 7] (gapFaultSamples .w24 0xABCD (fun k => k) 8 true ++ []), _,
      by decide, rfl, rfl, rfl, rfl, noRst rfl, rfl, rfl, rfl, rfl, rfl, rfl, rfl, rfl, rfl, rfl, rfl⟩⟩

theorem witness_SilentBusHangsPortP :
    ∃ s : State, s.cfg.wf = true ∧ s.busy = true ∧ s.ft.state = .shift ∧ s.ft.err = false ∧
      s.bufLock = .free ∧ s.NoRst ∧ s.ft.bitcnt < s.ft.w.bits ∧ s.lineIn = [] ∧ s.inbox = [.portP 0x10000000] ∧
      (∀ x ∈ s.inbox, ∃ cw, x = .portP cw) ∧ s.slots.flatMap Slot.words = [0x80000000, 0x90004000, 0x10000000] :=
  ⟨{ waiting with
      inbox := [.portP 0x10000000], slots := [.before [0x80000000], .quiet, .after [0x90004000, 0x10000000]] },
    by decide, rfl, rfl, rfl, rfl, fun _ hk => by simp at hk, by decide, rfl, rfl,
    fun _ hx => ⟨0x10000000, List.mem_singleton.mp hx⟩, rfl⟩

theorem witness_WireFramesGoOutAsEncoded :
    (∃ (s : State) (tx : TxWord) (a : BusAnswer) (b : List BusAnswer) (rx : BitVec 32),
      encode s.cfg (.wWrRange7 6) = .frame .w24 tx ∧ s.busIn = a :: b ∧ a.word s.dev .w24 = some rx) ∧
    (∃ (s : State) (tx : TxWord) (a : BusAnswer) (b : List BusAnswer),
      encode s.cfg .wManCh7 = .frame .w32 tx ∧ s.busIn = a :: b ∧ a.isFault = true) :=
  ⟨⟨idle [] [.answer 7], _, _, _, _, rfl, rfl, rfl⟩, ⟨idle [] [.fault 0 5 true], _, _, _, rfl, rfl, rfl⟩⟩

/-- BUS completes the next frame, and DEV is `d`. -/
def wired (d : Dev) : State := { idle [] [.answer 7] with dev := d }

/-- Each clause of the statement on W.NO_OP: no mode, manual, the next channel above, and the wrap. -/
theorem witness_NoOpConvertsTheNextChannel :
    (∃ (s : State) (a : BusAnswer) (b : List BusAnswer) (rx : BitVec 32),
      s.cfg.addressesOk = true ∧ s.busIn = a :: b ∧ a.word s.dev .w32 = some rx ∧ s.dev.mode = .idle) ∧
    (∃ (s : State) (a : BusAnswer) (b : List BusAnswer) (rx : BitVec 32) (n : Chan),
      s.cfg.addressesOk = true ∧ s.busIn = a :: b ∧ a.word s.dev .w32 = some rx ∧ s.dev.mode = .man n) ∧
    (∃ (s : State) (a : BusAnswer) (b : List BusAnswer) (rx : BitVec 32) (n m : Chan),
      s.cfg.addressesOk = true ∧ s.busIn = a :: b ∧ a.word s.dev .w32 = some rx ∧ s.dev.mode = .auto n ∧
      s.dev.inSequence s.cfg m = true ∧ n < m ∧ ∀ j, n < j → j < m → s.dev.inSequence s.cfg j = false) ∧
    (∃ (s : State) (a : BusAnswer) (b : List BusAnswer) (rx : BitVec 32) (n m : Chan),
      s.cfg.addressesOk = true ∧ s.busIn = a :: b ∧ a.word s.dev .w32 = some rx ∧ s.dev.mode = .auto n ∧
      s.dev.inSequence s.cfg m = true ∧ (∀ j, n < j → s.dev.inSequence s.cfg j = false) ∧
      ∀ j, j < m → s.dev.inSequence s.cfg j = false) :=
  ⟨⟨wired Dev.initial, _, _, _, by decide, rfl, rfl, rfl⟩,
    ⟨wired { Dev.initial with mode := .man 3 }, _, _, _, 3, by decide, rfl, rfl, rfl⟩,
    ⟨wired { Dev.initial with mode := .auto 0, pr := [(1, 0x81)] }, _, _, _, 0, 7,
      by decide, rfl, rfl, rfl, by decide, by decide, by decide⟩,
    ⟨wired { Dev.initial with mode := .auto 7 }, _, _, _, 7, 0,
      by decide, rfl, rfl, rfl, by decide, by decide, by decide⟩⟩

theorem witness_RstReturnsTheRegisters :
    ∃ (s : State) (a : BusAnswer) (b : List BusAnswer) (rx : BitVec 32), s.cfg.addressesOk = true ∧
      s.busIn = a :: b ∧ a.word s.dev .w32 = some rx ∧ s.dev.reg s.cfg 5 = 3 :=
  ⟨wired { Dev.initial with pr := [(5, 3)] }, _, _, _, by decide, rfl, rfl, by decide⟩

/-- Each clause of the statement on W.AUTO_RST. -/
theorem witness_AutoRstConvertsTheLowestChannel :
    (∃ (s : State) (a : BusAnswer) (b : List BusAnswer) (rx : BitVec 32) (n : Chan),
      s.cfg.addressesOk = true ∧ s.busIn = a :: b ∧ a.word s.dev .w32 = some rx ∧
      s.dev.inSequence s.cfg n = true ∧ ∀ j, j < n → s.dev.inSequence s.cfg j = false) ∧
    (∃ (s : State) (a : BusAnswer) (b : List BusAnswer) (rx : BitVec 32),
      s.cfg.addressesOk = true ∧ s.busIn = a :: b ∧ a.word s.dev .w32 = some rx ∧
      ∀ n, s.dev.inSequence s.cfg n = false) :=
  ⟨⟨wired { Dev.initial with pr := [(1, 0x80)] }, _, _, _, 7, by decide, rfl, rfl, by decide, by decide⟩,
    ⟨wired { Dev.initial with pr := [(1, 0x00)] }, _, _, _, by decide, rfl, rfl, by decide⟩⟩

theorem witness_ManChConvertsItsChannel :
    ∃ (s : State) (n : Chan) (a : BusAnswer) (b : List BusAnswer) (rx : BitVec 32), n = 7 ∧
      s.cfg.addressesOk = true ∧ s.busIn = a :: b ∧ a.word s.dev .w32 = some rx ∧ s.dev.mode = .auto 2 :=
  ⟨wired { Dev.initial with mode := .auto 2 }, 7, _, _, _, rfl, by decide, rfl, rfl, rfl⟩

theorem witness_WrStoresOneRegister :
    ∃ (s : State) (r : BitVec 7) (a : BusAnswer) (b : List BusAnswer) (rx : BitVec 32), r = 0x7F ∧
      Memory.wf s.cfg s.dev.pr = true ∧ s.busIn = a :: b ∧ a.word s.dev .w24 = some rx :=
  ⟨wired { Dev.initial with pr := [(5, 3), (127, 9)] }, 0x7F, _, _, _, rfl, by decide, rfl, rfl⟩

theorem witness_RegisterRowsWriteTheirRegister :
    ∃ (s : State) (a : BusAnswer) (b : List BusAnswer) (rx : BitVec 32), s.cfg.addressesOk = true ∧
      Memory.wf s.cfg s.dev.pr = true ∧ s.busIn = a :: b ∧ a.word s.dev .w24 = some rx ∧
      s.cfg.seqEnAll = 0xFF ∧ s.dev.reg s.cfg s.cfg.regChPwrDn = 0x00 :=
  ⟨wired { Dev.initial with pr := [(1, 0x80)] }, _, _, _, by decide, by decide, rfl, rfl, rfl, by decide⟩

/-- The first clause in auto-sequence mode; the second with W.MAN_CHn, W.AUTO_RST and W.NO_OP before. -/
theorem witness_ResponseBelongsToThePreviousCommand :
    (∃ (s : State) (tx : TxWord) (noise : BitVec 32) (b : List BusAnswer) (code : Code),
      s.busIn = .device noise :: b ∧ encode s.cfg .wAutoRst = .frame .w32 tx ∧ s.dev.pending = some code) ∧
    (∀ j ∈ [Instr.wManCh7, .wAutoRst, .wNoOp],
      ∃ (s t : State) (txj txi : TxWord) (a : BusAnswer) (noise rx : BitVec 32) (b : List BusAnswer) (n : Chan),
        s.cfg.addressesOk = true ∧ s.busIn = a :: .device noise :: b ∧ a.word s.dev .w32 = some rx ∧
        encode s.cfg j = .frame .w32 txj ∧ encode s.cfg .wRst = .frame .w32 txi ∧ exec j s = .next t ∧
        (t.dev.mode = .man n ∨ t.dev.mode = .auto n)) := by
  refine ⟨⟨{ idle [] [.device 9] with dev := devAuto }, _, _, _, _, rfl, rfl, rfl⟩, ?_⟩
  simp only [List.forall_mem_cons, List.not_mem_nil, false_implies, implies_true, and_true]
  exact ⟨⟨idle [] [.answer 7, .device 9], _, _, _, _, _, _, _, 7, by decide, rfl, rfl, rfl, rfl, rfl, .inl rfl⟩,
    ⟨idle [] [.answer 7, .device 9], _, _, _, _, _, _, _, 0, by decide, rfl, rfl, rfl, rfl, rfl, .inr (by decide)⟩,
    ⟨{ idle [] [.answer 7, .device 9] with dev := devAuto }, _, _, _, _, _, _, _, 1,
      by decide, rfl, rfl, rfl, rfl, rfl, .inr (by decide)⟩⟩

theorem witness_ManualPassReadsItsOwnConversions :
    ∃ (s : State) (noises : List (BitVec 32)) (b : List BusAnswer),
      s.port = .P ∧ s.ft.state = .idle ∧ s.bufLock = .free ∧ s.NoRst ∧ s.drvState = .ready ∧
      s.straps.strategy = .manual ∧ s.cfg.addressesOk = true ∧ noises.length = 9 ∧
      s.busIn = noises.map .device ++ b :=
  ⟨ready .manual false ((List.replicate 9 0).map .device ++ []), List.replicate 9 0, [],
    rfl, rfl, rfl, noRst rfl, rfl, rfl, by decide, rfl, rfl⟩

theorem witness_AutoPassReadsTheSequence :
    (∃ (s : State) (noises : List (BitVec 32)) (b : List BusAnswer),
      s.port = .P ∧ s.ft.state = .idle ∧ s.bufLock = .free ∧ s.NoRst ∧ s.drvState = .ready ∧
      s.straps.strategy = .autoSeq ∧ s.cfg.addressesOk = true ∧ (∀ n, s.dev.inSequence s.cfg n = true) ∧
      s.busIn = noises.map .device ++ b ∧ s.autoArmed = false ∧ noises.length = 9) ∧
    (∃ (s : State) (noises : List (BitVec 32)) (b : List BusAnswer) (code : Code),
      s.port = .P ∧ s.ft.state = .idle ∧ s.bufLock = .free ∧ s.NoRst ∧ s.drvState = .ready ∧
      s.straps.strategy = .autoSeq ∧ s.cfg.addressesOk = true ∧ (∀ n, s.dev.inSequence s.cfg n = true) ∧
      s.busIn = noises.map .device ++ b ∧ s.autoArmed = true ∧ noises.length = 8 ∧ s.dev.mode = .auto 0 ∧
      s.dev.pending = some code) :=
  ⟨⟨ready .autoSeq false ((List.replicate 9 0).map .device ++ []), List.replicate 9 0, [],
      rfl, rfl, rfl, noRst rfl, rfl, rfl, by decide, by decide, rfl, rfl, rfl⟩,
    ⟨{ ready .autoSeq true ((List.replicate 8 0).map .device ++ []) with dev := devAuto }, List.replicate 8 0, [], _,
      rfl, rfl, rfl, noRst rfl, rfl, rfl, by decide, by decide, rfl, rfl, rfl, rfl, rfl⟩⟩

/-- SCHED started, with its period of 100, at its deadline 1000. -/
def sampling (l : List Input) (b : List BusAnswer) : State :=
  { State.reset with
    drvState := .ready, sched := { Sched.initial with started := true, deadline := 1000 }, now := 1000, inbox := l,
    busIn := b }

theorem witness_TimeNeverGoesBack :
    (∃ s t : State, step s = .next t ∧ s.now < t.now) ∧
    (∃ (s : State) (l : List Input), s.cfg.wf = true ∧ s.busy = false ∧ s.inbox = .sleepMicros 50 7 :: l) :=
  ⟨⟨sampling [.sleepMicros 50 7] [], _, rfl, by decide +kernel⟩,
    ⟨sampling [.sleepMicros 50 7] [], [], by decide, rfl, rfl⟩⟩

theorem witness_NoIterationBeforeTheStart :
    (∃ (s : State) (l : List Input), s.cfg.wf = true ∧ s.busy = false ∧ s.inbox = .schedStart 5 :: l ∧
      s.drvState = .ready) ∧
    (∃ (s : State) (l : List Input), s.cfg.wf = true ∧ s.busy = false ∧ s.inbox = .schedStart 5 :: l ∧
      s.drvState ≠ .ready) ∧
    (∃ (s : State) (l : List Input), s.cfg.wf = true ∧ s.busy = false ∧ s.sched.started = false ∧
      s.inbox = .iterate true 5 6 :: l) :=
  ⟨⟨{ ready .manual false [] with inbox := [.schedStart 5] }, [], by decide, rfl, rfl, rfl⟩,
    ⟨idle [.schedStart 5] [], [], by decide, rfl, rfl, by decide⟩,
    ⟨idle [.iterate true 5 6] [], [], by decide, rfl, rfl, rfl⟩⟩

/-- One iteration by SCAN_ALL and one by SCAN8, the second in the last microsecond before its deadline. -/
theorem witness_DeadlinesDoNotDrift :
    ∃ (s : State) (its : List (Bool × Time × Time)) (l : List Input), s.cfg.wf = true ∧ s.busy = false ∧
      s.ft.state = .idle ∧ s.bufLock = .free ∧ s.NoRst ∧ s.sched.started = true ∧
      s.inbox = its.map (fun x => .iterate x.1 x.2.1 x.2.2) ++ l ∧ (∀ a ∈ s.busIn, a.isWhole = true) ∧
      16 * its.length ≤ s.busIn.length ∧ s.now < s.sched.deadline + s.period ∧ its.length = 2 ∧
      ∀ (k : Nat) (h : k < its.length), its[k].2.1 < s.sched.deadline + (k + 1) * s.period ∧
        its[k].2.2 < s.sched.deadline + (k + 2) * s.period :=
  ⟨sampling [.iterate false 1099 1100, .iterate true 1199 1200] (List.replicate 32 (.answer 7)),
    [(false, 1099, 1100), (true, 1199, 1200)], [], by decide, rfl, rfl, rfl, noRst rfl, rfl, rfl, by decide, by decide,
    by decide +kernel, rfl, by
      intro k h
      rcases k with _ | _ | k
      · decide +kernel +revert
      · decide +kernel +revert
      · simp at h⟩

/-- The boundary of R289, and the last microsecond before it. -/
theorem witness_OverrunIsReportedOnce :
    (∃ (s : State) (l : List Input), s.cfg.wf = true ∧ s.busy = false ∧ s.sched.started = true ∧
      s.inbox = .finish (s.sched.deadline + 100) 0 :: l ∧ s.now ≤ s.sched.deadline + 100 ∧ s.period ≤ 100) ∧
    (∃ (s : State) (l : List Input), s.cfg.wf = true ∧ s.busy = false ∧ s.sched.started = true ∧
      s.inbox = .finish (s.sched.deadline + 99) 0 :: l ∧ s.now ≤ s.sched.deadline + 99 ∧ 99 < s.period) :=
  ⟨⟨sampling [.finish (1000 + 100) 0] [], [], by decide, rfl, rfl, rfl, by decide +kernel, by decide +kernel⟩,
    ⟨sampling [.finish (1000 + 99) 0] [], [], by decide, rfl, rfl, rfl, by decide +kernel, by decide +kernel⟩⟩

/-- An iteration may begin, at the deadline 1000. -/
def mayIterate (s : State) (scan8 : Bool) (l : List Input) : Prop :=
  s.cfg.wf = true ∧ s.busy = false ∧ s.ft.state = .idle ∧ s.bufLock = .free ∧ s.NoRst ∧ s.sched.started = true ∧
    s.inbox = .iterate scan8 1050 0 :: l ∧ s.now < s.sched.deadline + s.period ∧ 1050 < s.sched.deadline + s.period

theorem sampling_mayIterate (k : Bool) (d : DrvState) (b : List BusAnswer) :
    mayIterate { sampling [.iterate k 1050 0] b with drvState := d } k [] :=
  ⟨show Config.default.wf = true by decide, rfl, rfl, rfl, noRst rfl, rfl, rfl,
    show (1000 : Time) < 1000 + 100 by decide +kernel, show (1050 : Time) < 1000 + 100 by decide +kernel⟩

/-- A scan that is refused; one whose first frame faults, and one whose last; SCAN8 refused, and with faults. -/
theorem witness_FailedScanIsReportedAndTheLoopGoesOn :
    (∃ (s : State) (l : List Input), mayIterate s false l ∧ s.drvState ≠ .ready) ∧
    (∀ m ∈ [0, 8], ∃ (s : State) (l : List Input) (rs : List (BitVec 32)) (d : Dev) (a : BusAnswer)
        (b : List BusAnswer), mayIterate s false l ∧ s.drvState = .ready ∧ m < s.passFrames.length ∧
      exchange s.cfg s.dev (s.passFrames.take m) s.busIn = some (rs, d, a :: b) ∧ a.isFault = true) ∧
    (∃ (s : State) (l : List Input), mayIterate s true l ∧ s.drvState ≠ .ready) ∧
    (∃ (s : State) (l : List Input), mayIterate s true l ∧ s.drvState = .ready ∧
      (∀ a ∈ s.busIn, a.isWhole = true) ∧ 16 ≤ s.busIn.length) := by
  refine ⟨⟨_, _, sampling_mayIterate false .configuring [], by decide⟩, ?_,
    ⟨_, _, sampling_mayIterate true .configuring [], by decide⟩,
    ⟨_, _, sampling_mayIterate true .ready (.notReady :: answers 0 15), rfl, by decide, by decide⟩⟩
  simp only [List.forall_mem_cons, List.not_mem_nil, false_implies, implies_true, and_true]
  exact ⟨⟨_, _, _, _, _, _, sampling_mayIterate false .ready [.notReady], rfl, by decide, rfl, rfl⟩,
    ⟨_, _, _, _, _, _, sampling_mayIterate false .ready (answers 0 8 ++ [.notReady]), rfl, by decide, rfl, rfl⟩⟩

/-- SCHED may begin its startup, with the highest range on channel 7. -/
def mayStart (s : State) (l : List Input) : Prop :=
  s.cfg.wf = true ∧ s.busy = false ∧ s.ft.state = .idle ∧ s.bufLock = .free ∧ s.NoRst ∧
    s.inbox = .startup #v[0, 1, 2, 3, 4, 5, 6, 6] 5 :: l ∧
    ∀ c : Chan, (#v[0, 1, 2, 3, 4, 5, 6, 6] : Vector Byte 8)[c].toNat ≤ 6

/-- `n` frames of the startup completed under `k`, and then the answers `b`. -/
def starting (k : Strategy) (n : Nat) (b : List BusAnswer) : State :=
  { ready k false (answers 0 n ++ b) with inbox := [.startup #v[0, 1, 2, 3, 4, 5, 6, 6] 5] }

theorem starting_mayStart (k : Strategy) (n : Nat) (b : List BusAnswer) : mayStart (starting k n b) [] :=
  ⟨show Config.default.wf = true by decide, rfl, rfl, rfl, noRst rfl, rfl, by decide⟩

/-- The startup under each strategy, and one whose last frame faults. -/
theorem witness_StartupReachesReady :
    (∀ k : Strategy, ∃ (s : State) (l : List Input) (rs : List (BitVec 32)) (d : Dev) (b : List BusAnswer),
      mayStart s l ∧ s.straps.strategy = k ∧
      exchange s.cfg s.dev (initFrames s.cfg s.straps.strategy #v[0, 1, 2, 3, 4, 5, 6, 6]) s.busIn =
        some (rs, d, b)) ∧
    (∃ (s : State) (l : List Input) (f : FrameReq) (rs : List (BitVec 32)) (d : Dev) (a : BusAnswer)
        (b : List BusAnswer),
      mayStart s l ∧ (initFrames s.cfg s.straps.strategy #v[0, 1, 2, 3, 4, 5, 6, 6])[12]? = some f ∧
      a.isFault = true ∧
      exchange s.cfg s.dev ((initFrames s.cfg s.straps.strategy #v[0, 1, 2, 3, 4, 5, 6, 6]).take 12) s.busIn =
        some (rs, d, a :: b)) := by
  refine ⟨fun k => ?_, ⟨starting .autoSeq 12 [.notReady], [], _, _, _, _, _, starting_mayStart .., rfl, rfl, rfl⟩⟩
  cases k
  · exact ⟨starting .manual 11 [], [], _, _, _, starting_mayStart .., rfl, rfl⟩
  · exact ⟨starting .autoSeq 13 [], [], _, _, _, starting_mayStart .., rfl, rfl⟩

end Sys2Proof.Tests
end

section
/-! PROOFS. What one step can do to the parameters, the straps, the slots and the history (R8, R14, R28, R44).
The operations keep the first three and only add events (`State.Grows`); a tick uses up a slot, and may take the
hardware reset that the slot holds (`State.Evolves`). `step_cases` says what a whole step can do. -/

namespace Sys2Proof

/-! ## The constraints of R11 -/

theorem Config.isRangeReg_iff (c : Config) (a : BitVec 7) :
    c.isRangeReg a = true ↔ c.regRangeBase.toNat ≤ a.toNat ∧ a.toNat ≤ c.regRangeBase.toNat + 7 := by
  simp only [Config.isRangeReg, Bool.and_eq_true, decide_eq_true_eq]

theorem Config.addressesOk_iff (c : Config) :
    c.addressesOk = true ↔
      c.commands.Nodup ∧ c.regRangeBase.toNat + 7 ≤ 0x7F ∧ c.regAutoSeqEn ≠ c.regChPwrDn ∧
        ¬c.isRangeReg c.regAutoSeqEn = true ∧ ¬c.isRangeReg c.regChPwrDn = true := by
  simp only [Config.addressesOk, Bool.and_eq_true, decide_eq_true_eq, bne_iff_ne, Bool.not_eq_true',
    Bool.not_eq_true, and_assoc]

theorem Config.wf_iff (c : Config) : c.wf = true ↔ c.addressesOk = true ∧ c.timesOk = true := by
  simp only [Config.wf, Bool.and_eq_true]

end Sys2Proof

namespace Sys2Proof.Machine

open Sys2Proof

/-! ## Parameters, straps and slots kept, events added -/

/-- `t` has the parameters, the straps and the slots of `s`, and its history with events added at the end. -/
structure State.Grows (s t : State) : Prop where
  cfg : t.cfg = s.cfg
  straps : t.straps = s.straps
  slots : t.slots = s.slots
  hist : s.hist <+: t.hist

namespace State.Grows

theorem of_hist {s t : State} {evs : List Event} (hist : t.hist = s.hist ++ evs)
    (cfg : t.cfg = s.cfg := by rfl) (straps : t.straps = s.straps := by rfl)
    (slots : t.slots = s.slots := by rfl) : s.Grows t :=
  ⟨cfg, straps, slots, evs, hist.symm⟩

theorem same {s t : State} (hist : t.hist = s.hist := by rfl) (cfg : t.cfg = s.cfg := by rfl)
    (straps : t.straps = s.straps := by rfl) (slots : t.slots = s.slots := by rfl) : s.Grows t :=
  of_hist (hist.trans (List.append_nil _).symm) cfg straps slots

theorem refl (s : State) : s.Grows s := same

theorem trans {s t u : State} (h : s.Grows t) (h' : t.Grows u) : s.Grows u where
  cfg := h'.cfg.trans h.cfg
  straps := h'.straps.trans h.straps
  slots := h'.slots.trans h.slots
  hist := h.hist.trans h'.hist

theorem ite {s a b : State} {p : Prop} [Decidable p] (ha : s.Grows a) (hb : s.Grows b) :
    s.Grows (if p then a else b) := by
  split
  · exact ha
  · exact hb

end State.Grows

/-! ## The shared operations -/

theorem State.emit_grows (s : State) (e : Event) : s.Grows (s.emit e) := .of_hist (s.emit_hist e)

theorem State.goto_grows (s : State) (k : Nat) : s.Grows (s.goto k) := .same

theorem State.acceptP_grows (s : State) (cw : HostWord) : s.Grows (s.acceptP cw) := .of_hist (s.acceptP_hist cw)

theorem State.respondP_grows (s : State) (r : Response) : s.Grows (s.respondP r) := .of_hist (s.respondP_hist r)

theorem State.respondC_grows (s : State) (r : Response) : s.Grows (s.respondC r) := .of_hist (s.respondC_hist r)

theorem State.raise_grows (s : State) (st : Status) : s.Grows (s.raise st) := s.respondP_grows _

theorem State.raiseConfigFault_grows (s : State) : s.Grows s.raiseConfigFault :=
  (State.Grows.same : s.Grows { s with drvState := .uninitialized, autoArmed := false }).trans (State.raise_grows _ _)

theorem State.refuseC_grows (s : State) (cw : HostWord) : s.Grows (s.refuseC cw) :=
  (s.emit_grows _).trans (State.respondC_grows _ _)

theorem State.illegalWord_grows (s : State) (p : Port) (cw : HostWord) : s.Grows (s.illegalWord p cw) := by
  cases p with
  | P => exact (s.acceptP_grows cw).trans (State.raise_grows _ _)
  | C => exact s.refuseC_grows cw

theorem State.commit_grows (s : State) (code : Vector Code 8) (valid : BitVec 8) : s.Grows (s.commit code valid) :=
  .of_hist (s.commit_hist code valid)

theorem State.snapshot_grows (s : State) (p : Port) : s.Grows (s.snapshot p).1 := .of_hist rfl

theorem State.nextOr_grows (s : State) (k : Nat) (r : FtReply) (f : Nat) : s.Grows (s.nextOr k r f) :=
  .ite (s.goto_grows _) (s.goto_grows _)

/-- A request of FT takes an answer of BUS and adds at most the event of its frame. -/
theorem State.request_grows (s : State) (kind : ReqKind) (w : Width) (tx : TxWord) :
    s.Grows (s.request kind w tx).1 := by
  rcases s.request_cases kind w tx with ⟨b, _, h⟩ | ⟨a, b, rx, _, _, h⟩ | ⟨a, b, _, _, h⟩ <;> rw [h]
  · exact .same
  · exact .of_hist rfl
  · exact .of_hist rfl

theorem State.command_grows (s : State) (cmd : BitVec 16) : s.Grows (s.command cmd).1 := s.request_grows _ _ _

theorem State.regWrite_grows (s : State) (a : BitVec 7) (v : Byte) : s.Grows (s.regWrite a v).1 :=
  s.request_grows _ _ _

theorem State.benchRequest_grows (s : State) (kind : ReqKind) (w : Width) (tx : TxWord) :
    s.Grows (s.benchRequest kind w tx) := by
  have h := s.request_grows kind w tx
  unfold State.benchRequest
  split <;> rename_i hr <;> rw [hr] at h
  · exact h.trans .same
  · exact h.trans .same

/-! ## Port C -/

theorem State.getCodesC_grows (s : State) (cw : HostWord) : s.Grows (s.getCodesC cw) :=
  ((s.emit_grows _).trans (State.snapshot_grows _ .C)).trans (State.respondC_grows _ _)

theorem State.toVoltageC_grows (s : State) (cw : HostWord) (code : Code) (rg : Byte) :
    s.Grows (s.toVoltageC cw code rg) :=
  (s.emit_grows _).trans (State.respondC_grows _ _)

theorem State.serveAll_grows (s : State) (cws : List HostWord) : s.Grows (s.serveAll cws) := by
  obtain ⟨r, evs, lock, _, _, h⟩ := State.serveAll_frame cws s
  rw [h]
  exact .of_hist rfl

/-! ## FT's steps -/

theorem State.endShift_grows (s : State) : s.Grows s.endShift := by
  have ht : s.Grows (if s.ft.err && !s.ft.acts then s else s.devReceives s.ft.w s.ft.shTx) := .ite (.refl s) .same
  exact ht.trans .same

theorem State.shiftStep_grows (s : State) : s.Grows s.shiftStep := by
  unfold State.shiftStep
  refine .ite s.endShift_grows ?_
  split
  · exact .refl s
  · exact .same
  · exact .ite .same .same

theorem State.endSettle_grows (s : State) : s.Grows s.endSettle.1 := .of_hist rfl

theorem State.settleTick_grows (s : State) : s.Grows s.settleTick := .same

/-! ## The operations of SEQ -/

/-- An operation whose steps keep parameters, straps and slots and only add events. -/
structure SeqOp.Grows (op : SeqOp) : Prop where
  step : ∀ (k : Nat) (s : State), s.Grows (op.step k s).1
  reply : ∀ (k : Nat) (r : FtReply) (s : State), s.Grows (op.reply k r s)

theorem SeqOp.Grows.micro {op : SeqOp} (h : op.Grows) (s : State) : s.Grows (op.micro s) := by
  have hs := h.step s.seqK s
  unfold SeqOp.micro
  split <;> rename_i ht <;> rw [ht] at hs
  · exact hs
  · exact hs.trans (h.reply _ _ _)

theorem resetOp_grows : resetOp.Grows where
  step k s := by
    rcases k with _ | _ | _ | _ | _ | _ | _ | k
    · exact .same
    · exact .of_hist rfl
    · exact .of_hist rfl
    · exact s.command_grows _
    · exact .of_hist rfl
    · exact s.regWrite_grows _ _
    · exact .of_hist rfl
    · exact s.raiseConfigFault_grows
  reply k r s := s.nextOr_grows k r 7

theorem powerOnAllOp_grows : powerOnAllOp.Grows where
  step k s := by
    rcases k with _ | _ | k
    · exact .same
    · exact s.regWrite_grows _ _
    · exact s.respondP_grows _
  reply _ _ s := .ite (s.goto_grows _) s.raiseConfigFault_grows

theorem illegalOperandOp_grows : illegalOperandOp.Grows where
  step _ s := s.raise_grows _
  reply _ _ s := .refl s

theorem setRangeOp_grows (ch rg : Byte) : (setRangeOp ch rg).Grows := by
  unfold setRangeOp
  split
  · split
    · refine ⟨fun k s => ?_, fun _ _ s => .ite (s.goto_grows _) s.raiseConfigFault_grows⟩
      rcases k with _ | _ | k
      · exact .same
      · exact State.Grows.trans (t := { s with autoArmed := false }) .same (State.regWrite_grows _ _ _)
      · exact .of_hist rfl
    · exact illegalOperandOp_grows
  · exact illegalOperandOp_grows

theorem getRangeOp_grows (ch : Byte) : (getRangeOp ch).Grows := by
  unfold getRangeOp
  split
  · exact ⟨fun _ s => s.respondP_grows _, fun _ _ s => .refl s⟩
  · exact illegalOperandOp_grows

theorem enterScanOp_grows : enterScanOp.Grows where
  step k s := by
    rcases k with _ | _ | _ | k
    · exact .ite (s.raise_grows _) (.ite (s.goto_grows _) (s.goto_grows _))
    · exact State.Grows.trans (t := { s with autoArmed := false }) .same (State.regWrite_grows _ _ _)
    · exact s.command_grows _
    · exact .of_hist rfl
  reply _ _ s := .ite (.ite .same (s.goto_grows _)) s.raiseConfigFault_grows

theorem readChOp_grows (ch : Byte) : (readChOp ch).Grows := by
  unfold readChOp
  split
  · rename_i c _
    refine ⟨fun k s => ?_, fun _ _ s => .ite (.ite .same (s.goto_grows _)) (s.goto_grows _)⟩
    rcases k with _ | _ | _ | _ | k
    · exact .ite (s.goto_grows _) (s.raise_grows _)
    · exact State.Grows.trans (t := { s with autoArmed := false, svalid := clearFlag s.svalid c }) .same
        (State.command_grows _ _)
    · exact s.command_grows _
    · exact (s.commit_grows _ _).trans (State.respondP_grows _ _)
    · exact (s.commit_grows _ _).trans (State.raise_grows _ _)
  · exact ⟨fun _ s => .ite (s.raise_grows _) (s.raise_grows _), fun _ _ s => .refl s⟩

theorem scanStart_grows (s : State) : s.Grows (scanStart s) := .ite .same (s.raise_grows _)

theorem scanDone_grows (s : State) : s.Grows (scanDone s) := (s.commit_grows _ _).trans (State.respondP_grows _ _)

theorem scanFault_grows (s : State) : s.Grows (scanFault s) :=
  (State.Grows.same : s.Grows { s with autoArmed := false }).trans
    ((State.commit_grows _ _ _).trans (State.respondP_grows _ _))

theorem scanManualStep_grows (k : Nat) (s : State) : s.Grows (scanManualStep k s).1 := by
  unfold scanManualStep
  split
  · exact scanStart_grows s
  · exact s.command_grows _
  · exact scanDone_grows s
  · split
    · exact s.command_grows _
    · exact scanFault_grows s

theorem scanAutoStep_grows (k : Nat) (s : State) : s.Grows (scanAutoStep k s).1 := by
  unfold scanAutoStep
  split
  · exact scanStart_grows s
  · split
    · exact s.goto_grows _
    · exact s.command_grows _
  · exact State.Grows.trans (t := { s with autoArmed := false }) .same (State.command_grows _ _)
  · exact s.command_grows _
  · exact scanDone_grows s
  · split
    · exact s.command_grows _
    · exact scanFault_grows s

theorem scanManualReply_grows (k : Nat) (r : FtReply) (s : State) : s.Grows (scanManualReply k r s) :=
  .ite (.ite (s.goto_grows _) .same) (s.goto_grows _)

theorem scanAutoReply_grows (k : Nat) (r : FtReply) (s : State) : s.Grows (scanAutoReply k r s) :=
  .ite (.ite .same (.ite .same .same)) (s.goto_grows _)

theorem scanAllOp_grows : scanAllOp.Grows where
  step k s := by
    simp only [scanAllOp]
    split
    · exact scanManualStep_grows k s
    · exact scanAutoStep_grows k s
  reply k r s := by
    simp only [scanAllOp]
    split
    · exact scanManualReply_grows k r s
    · exact scanAutoReply_grows k r s

theorem getCodesOp_grows : getCodesOp.Grows where
  step _ s := (s.snapshot_grows .P).trans (State.respondP_grows _ _)
  reply _ _ s := .refl s

theorem toVoltageOp_grows (code : Code) (rg : Byte) : (toVoltageOp code rg).Grows where
  step _ s := s.respondP_grows _
  reply _ _ s := .refl s

theorem seqOpOf_grows {i : Instr} {op : SeqOp} (h : seqOpOf i = some op) : op.Grows := by
  cases i with
  | reset => exact SeqOp.of_some resetOp_grows h
  | powerOnAll => exact SeqOp.of_some powerOnAllOp_grows h
  | setRange ch rg => exact SeqOp.of_some (setRangeOp_grows ch rg) h
  | getRange ch => exact SeqOp.of_some (getRangeOp_grows ch) h
  | enterScan => exact SeqOp.of_some enterScanOp_grows h
  | readCh ch => exact SeqOp.of_some (readChOp_grows ch) h
  | scanAll => exact SeqOp.of_some scanAllOp_grows h
  | getCodes => exact SeqOp.of_some getCodesOp_grows h
  | toVoltage code rg => exact SeqOp.of_some (toVoltageOp_grows code rg) h
  | _ => exact absurd h (Option.some_ne_none op).symm

/-- The operation in progress is the one of an instruction. -/
theorem State.currentOp_seqOpOf {s : State} {op : SeqOp} (h : s.currentOp = some op) :
    ∃ i, seqOpOf i = some op := by
  unfold State.currentOp at h
  split at h
  · rename_i i _
    split at h
    · rename_i o ho
      split at h
      · exact ⟨i, ho.trans h⟩
      · cases h
    · cases h
  · cases h

theorem State.currentOp_grows {s : State} {op : SeqOp} (h : s.currentOp = some op) : op.Grows :=
  (s.currentOp_seqOpOf h).elim fun _ hi => seqOpOf_grows hi

theorem State.takeReply_grows (s : State) (r : FtReply) : s.Grows (s.takeReply r) := by
  rcases s.takeReply_cases r with ⟨_, h⟩ | ⟨_, op, hop, h⟩ | ⟨_, _, h⟩ <;> rw [h]
  · exact .same
  · exact (s.currentOp_grows hop).reply _ _ _
  · exact .refl s

theorem State.finishFrame_grows (s : State) : s.Grows s.finishFrame :=
  s.endSettle_grows.trans (State.takeReply_grows _ _)

/-! ## Steps that may take a hardware reset -/

/-- `t` is reached from `s` by ticks: the parameters stay, events are added at the end of the history, slots are
taken from the front, and straps that differ are those of a hardware reset that a slot of `s` holds. -/
structure State.Evolves (s t : State) : Prop where
  cfg : t.cfg = s.cfg
  straps : t.straps = s.straps ∨ Slot.rst t.straps ∈ s.slots
  slots : t.slots <:+ s.slots
  hist : s.hist <+: t.hist

theorem State.Grows.evolves {s t : State} (h : s.Grows t) : s.Evolves t :=
  ⟨h.cfg, .inl h.straps, h.slots ▸ List.suffix_rfl, h.hist⟩

namespace State.Evolves

theorem refl (s : State) : s.Evolves s := (State.Grows.refl s).evolves

theorem trans {s t u : State} (h : s.Evolves t) (h' : t.Evolves u) : s.Evolves u where
  cfg := h'.cfg.trans h.cfg
  straps := by
    rcases h'.straps with hu | hu
    · exact hu ▸ h.straps
    · exact .inr (h.slots.subset hu)
  slots := h'.slots.trans h.slots
  hist := h.hist.trans h'.hist

end State.Evolves

theorem State.popSlot_evolves {s : State} {x : Slot} {l : List Slot} (h : s.slots = x :: l) :
    s.Evolves { s with slots := l } :=
  ⟨rfl, .inl rfl, h ▸ List.suffix_cons x l, List.prefix_rfl⟩

theorem State.rstSlot_evolves {s : State} {k : Straps} {l : List Slot} (h : s.slots = .rst k :: l) :
    s.Evolves ({ s with slots := l }.hwReset k) :=
  ⟨rfl, .inr (h ▸ List.mem_cons_self), h ▸ List.suffix_cons _ l, List.prefix_rfl⟩

theorem State.tick_evolves {f : State → State} (hf : ∀ s : State, s.Grows (f s)) (s : State) :
    s.Evolves (s.tick f) := by
  rcases s.tick_cases f with ⟨_, ht⟩ | ⟨l, h, ht⟩ | ⟨cws, l, h, ht⟩ | ⟨cws, l, h, ht⟩ | ⟨k, l, h, ht⟩ <;> rw [ht]
  · exact (hf s).evolves
  · exact (State.popSlot_evolves h).trans (hf _).evolves
  · exact (State.popSlot_evolves h).trans ((State.serveAll_grows _ cws).trans (hf _)).evolves
  · exact (State.popSlot_evolves h).trans ((hf _).trans (State.serveAll_grows _ cws)).evolves
  · exact State.rstSlot_evolves h

theorem SeqOp.Grows.run_evolves {op : SeqOp} (h : op.Grows) (n : Nat) (s : State) : s.Evolves (op.run n s) :=
  op.run_keeps (P := s.Evolves) (fun t ht _ _ => ht.trans (t.tick_evolves h.micro)) n s (.refl s)

/-! ## `exec` -/

/-- All that an instruction can do: run its operation, answer a word of port C, or make a bench's request. -/
theorem exec_cases (i : Instr) (s : State) :
    (∃ op, seqOpOf i = some op ∧ exec i s = op.exec i s) ∨
    (∃ cw, exec i s = .next (s.getCodesC cw)) ∨
    (∃ cw code rg, exec i s = .next (s.toVoltageC cw code rg)) ∨
    (∃ kind w tx, exec i s = .next (s.benchRequest kind w tx)) ∨
    exec i s = .next s.illegalRequest := by
  cases i with
  | reset | powerOnAll | setRange | getRange | enterScan | readCh | scanAll => exact .inl ⟨_, rfl, rfl⟩
  | getCodes =>
    simp only [exec, execGetCodes]
    split
    · exact .inl ⟨_, rfl, rfl⟩
    · exact .inr (.inl ⟨_, rfl⟩)
  | toVoltage code rg =>
    simp only [exec, execToVoltage]
    split
    · exact .inl ⟨_, rfl, rfl⟩
    · exact .inr (.inr (.inl ⟨_, _, _, rfl⟩))
  | transact wsel payload =>
    simp only [exec, execTransact]
    split
    · exact .inr (.inr (.inr (.inl ⟨_, _, _, rfl⟩)))
    · exact .inr (.inr (.inr (.inr rfl)))
  | _ => exact .inr (.inr (.inr (.inl ⟨_, _, _, rfl⟩)))

theorem SeqOp.Grows.exec_evolves {op : SeqOp} (h : op.Grows) (i : Instr) (s : State) :
    ∃ t, op.exec i s = .next t ∧ s.Evolves t := by
  cases hp : s.port with
  | P => exact ⟨_, op.exec_P i hp, (s.acceptP_grows _).evolves.trans (h.run_evolves _ _)⟩
  | C => exact ⟨_, op.exec_C i hp, (s.refuseC_grows _).evolves⟩

/-- An instruction always answers a next state. -/
theorem exec_evolves (i : Instr) (s : State) : ∃ t, exec i s = .next t ∧ s.Evolves t := by
  rcases exec_cases i s with ⟨op, hop, h⟩ | ⟨cw, h⟩ | ⟨cw, code, rg, h⟩ | ⟨kind, w, tx, h⟩ | h <;> rw [h]
  · exact (seqOpOf_grows hop).exec_evolves i s
  · exact ⟨_, rfl, (s.getCodesC_grows cw).evolves⟩
  · exact ⟨_, rfl, (s.toVoltageC_grows cw code rg).evolves⟩
  · exact ⟨_, rfl, (s.benchRequest_grows kind w tx).evolves⟩
  · exact ⟨_, rfl, State.Grows.evolves .same⟩

theorem State.runWord_evolves (s : State) (p : Port) (cw : HostWord) :
    ∃ t, s.runWord p cw = .next t ∧ s.Evolves t := by
  unfold State.runWord
  split
  · rename_i i _
    obtain ⟨t, h, ht⟩ := exec_evolves i { s with port := p }
    exact ⟨t, h, State.Evolves.trans (State.Grows.evolves .same) ht⟩
  · exact ⟨_, rfl, (s.illegalWord_grows p cw).evolves⟩

theorem State.runRequest_evolves (s : State) (rq : RequestWord) : ∃ t, s.runRequest rq = .next t ∧ s.Evolves t := by
  unfold State.runRequest
  split
  · exact exec_evolves _ s
  · exact ⟨_, rfl, State.Grows.evolves .same⟩

theorem State.runFrame_evolves (s : State) (w : Width) (tx : TxWord) :
    ∃ t, s.runFrame w tx = .next t ∧ s.Evolves t := by
  unfold State.runFrame
  split
  · exact exec_evolves _ s
  · exact ⟨_, rfl, (s.benchRequest_grows _ w tx).evolves⟩

/-! ## The owner's moves -/

theorem scriptMove_grows (fresh : Bool) (ws : List HostWord) (l : List Input) (s : State) :
    s.Grows (scriptMove fresh ws l s) := by
  unfold scriptMove
  refine .ite .same ?_
  split
  · exact .same
  · exact .same

theorem schedStart_grows (now : Time) (s : State) : s.Grows (schedStart now s) := .ite .same (.refl s)

theorem iterateMove_grows (scan8 : Bool) (now wake : Time) (l : List Input) (s : State) :
    s.Grows (iterateMove scan8 now wake l s) := .ite .same .same

theorem schedReport_grows (s : State) : s.Grows (schedReport s) := .ite (.refl s) .same

theorem schedFinish_grows (now wake : Time) (s : State) : s.Grows (schedFinish now wake s) :=
  .ite (.ite .same .same) (.refl s)

/-! ## The step -/

/-- What a step from `s` answers, but for a hardware reset it takes first: a state that `s` evolves to, or the
fault of a sequencer at no step. -/
def State.Proceeds (s : State) (o : Host.Outcome State Fault Refusal) : Prop :=
  (∃ t, o = .next t ∧ s.Evolves t) ∨ o = .fault .noSuchStep

theorem State.Evolves.proceeds {s t : State} {o : Host.Outcome State Fault Refusal} (h : s.Evolves t)
    (ho : t.Proceeds o) : s.Proceeds o := by
  rcases ho with ⟨u, hu, htu⟩ | hf
  · exact .inl ⟨u, hu, h.trans htu⟩
  · exact .inr hf

theorem State.resume_proceeds (s : State) : s.Proceeds s.resume := by
  rcases s.resume_cases with ⟨_, _, op, hop, h⟩ | ⟨_, _, _, h⟩ | ⟨_, h⟩
  · exact .inl ⟨_, h, (s.currentOp_grows hop).run_evolves _ s⟩
  · exact .inr h
  · exact .inl ⟨_, h, .refl s⟩

theorem State.settleStep_proceeds (s : State) : s.Proceeds s.settleStep := by
  rcases s.settleStep_cases with ⟨_, h⟩ | ⟨_, _, h⟩ | ⟨_, _, _, h⟩
  · exact .inl ⟨_, h, s.tick_evolves State.settleTick_grows⟩
  · exact h ▸ (s.tick_evolves State.finishFrame_grows).proceeds (State.resume_proceeds _)
  · exact .inr h

theorem State.proceed_proceeds (s : State) : s.Proceeds s.proceed := by
  unfold State.proceed
  split
  · exact .inl ⟨_, rfl, s.tick_evolves State.shiftStep_grows⟩
  · exact s.settleStep_proceeds
  · exact s.resume_proceeds

theorem State.popInput_evolves (s : State) (l : List Input) : s.Evolves { s with inbox := l } :=
  State.Grows.evolves .same

theorem State.stepBusy_cases (s : State) :
    (∃ k l, s.inbox = .rst k :: l ∧ s.stepBusy = .next ({ s with inbox := l }.hwReset k)) ∨
      s.Proceeds s.stepBusy := by
  unfold State.stepBusy
  split
  · exact .inr ((s.popInput_evolves _).proceeds (.inl (State.runWord_evolves _ .C _)))
  · rename_i k l h; exact .inl ⟨k, l, h, rfl⟩
  · exact .inr s.proceed_proceeds

theorem State.stepFree_cases (s : State) :
    (∃ k l, s.inbox = .rst k :: l ∧ s.stepFree = .next ({ s with inbox := l }.hwReset k)) ∨
      s.Proceeds s.stepFree := by
  unfold State.stepFree
  cases hin : s.inbox with
  | nil => exact .inr (.inl ⟨_, rfl, .refl s⟩)
  | cons x l =>
    have pop : ∀ {o}, (∃ t, o = .next t ∧ { s with inbox := l }.Evolves t) → s.Proceeds o :=
      fun h => (s.popInput_evolves l).proceeds (.inl h)
    cases x with
    | rst k => exact .inl ⟨k, l, rfl, rfl⟩
    | portP cw => exact .inr (pop (State.runWord_evolves _ .P cw))
    | portC cw => exact .inr (pop (State.runWord_evolves _ .C cw))
    | request rq => exact .inr (pop (State.runRequest_evolves _ rq))
    | frame w tx => exact .inr (pop (State.runFrame_evolves _ w tx))
    | startup ranges now => exact .inr (.inl ⟨_, rfl, State.Grows.evolves .same⟩)
    | schedStart now => exact .inr (pop ⟨_, rfl, (schedStart_grows now _).evolves⟩)
    | iterate scan8 now wake => exact .inr (.inl ⟨_, rfl, (iterateMove_grows scan8 now wake l s).evolves⟩)
    | report => exact .inr (pop ⟨_, rfl, (schedReport_grows _).evolves⟩)
    | finish now wake => exact .inr (pop ⟨_, rfl, (schedFinish_grows now wake _).evolves⟩)
    | sleepMicros n wake => exact .inr (.inl ⟨_, rfl, State.Grows.evolves .same⟩)
    | script fresh ws => exact .inr (.inl ⟨_, rfl, (scriptMove_grows fresh ws l s).evolves⟩)

/-- All that a step under legal parameters can do: take the hardware reset that is the next input, or proceed. -/
theorem step_cases {s : State} (hwf : s.cfg.wf = true) :
    (∃ k l, s.inbox = .rst k :: l ∧ step s = .next ({ s.clearOutputs with inbox := l }.hwReset k)) ∨
      s.Proceeds (step s) := by
  have hclear : s.Evolves s.clearOutputs := State.Grows.evolves .same
  unfold step
  rw [if_pos hwf]
  split
  · exact s.clearOutputs.stepBusy_cases.imp_right hclear.proceeds
  · exact s.clearOutputs.stepFree_cases.imp_right hclear.proceeds

theorem step_illegalParameters {s : State} (h : ¬s.cfg.wf = true) : step s = .refused .illegalParameters := if_neg h

/-- The step refuses nothing but illegal parameters. -/
theorem step_not_refused {s : State} (hwf : s.cfg.wf = true) (r : Refusal) : step s ≠ .refused r := by
  intro hr
  rcases step_cases hwf with ⟨k, l, _, h⟩ | ⟨t, h, _⟩ | h <;> cases h.symm.trans hr

/-- A step that answers a next state either takes the hardware reset that is the next input, or evolves. -/
theorem step_next_cases {s t : State} (h : step s = .next t) :
    (∃ k l, s.inbox = .rst k :: l ∧ t = { s.clearOutputs with inbox := l }.hwReset k) ∨ s.Evolves t := by
  by_cases hwf : s.cfg.wf = true
  · rcases step_cases hwf with ⟨k, l, hin, ht⟩ | ⟨u, hu, hev⟩ | hf
    · exact .inl ⟨k, l, hin, Host.Outcome.next.inj (h.symm.trans ht)⟩
    · exact .inr (Host.Outcome.next.inj (h.symm.trans hu) ▸ hev)
    · cases h.symm.trans hf
  · cases h.symm.trans (step_illegalParameters hwf)

/-! ## Constancy of the parameters, the straps and the past -/

/-- Settles O12: a hardware reset in the stead of the step samples the straps of the input, any other step evolves. -/
theorem parametersAndStrapsAreConstant : Obligations.ParametersAndStrapsAreConstant := by
  intro s t h
  rcases step_next_cases h with ⟨k, l, hin, rfl⟩ | hev
  · exact ⟨rfl, .inr ⟨k, rfl, .inl (by rw [hin]; rfl)⟩⟩
  · exact ⟨hev.cfg, hev.straps.imp_right fun hk => ⟨t.straps, rfl, .inr hk⟩⟩

/-- Settles O13: hardware reset keeps the history, any other step evolves. -/
theorem historyOnlyGrows : Obligations.HistoryOnlyGrows := by
  intro s t h
  rcases step_next_cases h with ⟨k, l, _, rfl⟩ | hev
  · exact List.prefix_rfl
  · exact hev.hist

/-! ## Refusal of broken parameters -/

/-- Settles O8: the step refuses exactly where `Config.wf` fails, whose first half is R11 and second R8. -/
theorem brokenParametersAreRefused : Obligations.BrokenParametersAreRefused := by
  unfold Obligations.BrokenParametersAreRefused
  intro keeps
  have hkeeps : ∀ c : Config, keeps c ↔ c.addressesOk = true := fun c => by
    rw [Config.addressesOk_iff, Config.isRangeReg_iff, Config.isRangeReg_iff]
  refine ⟨fun s hs => ?_, fun s hs ht => ?_, (hkeeps _).mpr (by decide), by decide⟩
  · exact step_illegalParameters fun hwf => hs ((hkeeps _).mpr ((Config.wf_iff _).mp hwf).1)
  · exact step_not_refused ((Config.wf_iff _).mpr ⟨(hkeeps _).mp hs, ht⟩) _

end Sys2Proof.Machine
end

section
/-! PROOFS. The host words: what the encoder writes for an operation the decoder reads back, and nothing else
decodes to it (R91 to R96). -/

namespace Sys2Proof

/-! ## The fields of a word -/

theorem hostWord_op (op : BitVec 4) (x : BitVec 24) : (hostWord op x).extractLsb' 28 4 = op := by
  rw [hostWord, BitVec.append_assoc]
  exact BitVec.extractLsb'_append_eq_left

theorem hostWord_reserved (op : BitVec 4) (x : BitVec 24) : (hostWord op x).extractLsb' 24 4 = 0 := by
  rw [hostWord, BitVec.extractLsb'_append_eq_of_le (by decide)]
  exact BitVec.extractLsb'_append_eq_right

theorem hostWord_operand (op : BitVec 4) (x : BitVec 24) {lo n : Nat} (h : lo + n ≤ 24) :
    (hostWord op x).extractLsb' lo n = x.extractLsb' lo n :=
  BitVec.extractLsb'_append_eq_of_add_le h

/-- A word whose reserved bits are 0 is put together from its operation code and its operand part. -/
theorem hostWord_fields {cw : HostWord} (h : cw.extractLsb' 24 4 = (0 : BitVec 4)) :
    hostWord (cw.extractLsb' 28 4) (cw.extractLsb' 0 24) = cw := by
  rw [hostWord, ← h, BitVec.extractLsb'_append_extractLsb'_eq_extractLsb' (by omega),
    BitVec.extractLsb'_append_extractLsb'_eq_extractLsb' (by omega), BitVec.extractLsb'_eq_self]

/-- The operand part of format CR (R94). -/
theorem operands_bytes (cw : HostWord) :
    cw.extractLsb' 16 8 ++ cw.extractLsb' 8 8 ++ cw.extractLsb' 0 8 = cw.extractLsb' 0 24 := by
  rw [BitVec.extractLsb'_append_extractLsb'_eq_extractLsb' (by omega),
    BitVec.extractLsb'_append_extractLsb'_eq_extractLsb' (by omega)]

/-- The operand part of formats C and V (R93, R95). -/
theorem operands_half (cw : HostWord) : cw.extractLsb' 16 8 ++ cw.extractLsb' 0 16 = cw.extractLsb' 0 24 :=
  BitVec.extractLsb'_append_extractLsb'_eq_extractLsb' (by omega)

/-! ## The formats -/

theorem formatN_ok {cw : HostWord} {i j : Instr} :
    formatN cw i = .ok j ↔ cw.extractLsb' 0 24 = 0 ∧ i = j := by
  unfold formatN; split <;> simp_all

theorem formatC_ok {cw : HostWord} {mk : Byte → Instr} {j : Instr} :
    formatC cw mk = .ok j ↔ cw.extractLsb' 0 16 = 0 ∧ mk (cw.extractLsb' 16 8) = j := by
  unfold formatC; split <;> simp_all

theorem formatCR_ok {cw : HostWord} {mk : Byte → Byte → Instr} {j : Instr} :
    formatCR cw mk = .ok j ↔
      cw.extractLsb' 0 8 = 0 ∧ mk (cw.extractLsb' 16 8) (cw.extractLsb' 8 8) = j := by
  unfold formatCR; split <;> simp_all

theorem formatC_hostWord (op : BitVec 4) (ch : Byte) (mk : Byte → Instr) :
    formatC (hostWord op (ch ++ (0 : BitVec 16))) mk = .ok (mk ch) := by
  refine formatC_ok.mpr ⟨?_, ?_⟩ <;> rw [hostWord_operand _ _ (by decide)]
  · exact BitVec.extractLsb'_append_eq_right
  · exact congrArg mk BitVec.extractLsb'_append_eq_left

theorem formatCR_hostWord (op : BitVec 4) (ch rg : Byte) (mk : Byte → Byte → Instr) :
    formatCR (hostWord op (ch ++ rg ++ (0 : BitVec 8))) mk = .ok (mk ch rg) := by
  refine formatCR_ok.mpr ⟨?_, ?_⟩
  · rw [hostWord_operand _ _ (by decide)]
    exact BitVec.extractLsb'_append_eq_right
  · have hch : (hostWord op (ch ++ rg ++ (0 : BitVec 8))).extractLsb' 16 8 = ch := by
      rw [hostWord_operand _ _ (by decide), BitVec.extractLsb'_append_eq_of_le (by decide)]
      exact BitVec.extractLsb'_append_eq_left
    have hrg : (hostWord op (ch ++ rg ++ (0 : BitVec 8))).extractLsb' 8 8 = rg := by
      rw [hostWord_operand _ _ (by decide), BitVec.extractLsb'_append_eq_of_le (by decide)]
      exact BitVec.extractLsb'_append_eq_right
    rw [hch, hrg]

theorem formatV_hostWord (op : BitVec 4) (code : Code) (rg : Byte) (mk : Code → Byte → Instr) :
    formatV (hostWord op (rg ++ code)) mk = .ok (mk code rg) := by
  rw [formatV, hostWord_operand _ _ (by decide), hostWord_operand _ _ (by decide),
    BitVec.extractLsb'_append_eq_right]
  exact congrArg (fun x => Except.ok (mk code x)) BitVec.extractLsb'_append_eq_left

end Sys2Proof

namespace Sys2Proof.Machine

open Sys2Proof

/-- The decoder reads back the word of every operation of SEQ. -/
theorem decodeHost_hostWordOf {i : Instr} (h : (seqOpOf i).isSome = true) : decodeHost (hostWordOf i) = .ok i := by
  cases i with
  | reset | powerOnAll | enterScan | scanAll | getCodes => rfl
  | setRange ch rg =>
    rw [hostWordOf, encode, decodeHost, if_pos (hostWord_reserved _ _), hostWord_op]
    exact formatCR_hostWord 3 ch rg _
  | getRange ch =>
    rw [hostWordOf, encode, decodeHost, if_pos (hostWord_reserved _ _), hostWord_op]
    exact formatC_hostWord 4 ch _
  | readCh ch =>
    rw [hostWordOf, encode, decodeHost, if_pos (hostWord_reserved _ _), hostWord_op]
    exact formatC_hostWord 6 ch _
  | toVoltage code rg =>
    rw [hostWordOf, encode, decodeHost, if_pos (hostWord_reserved _ _), hostWord_op]
    exact formatV_hostWord 9 code rg _
  | _ => cases h

/-- A word that decodes is the word of the operation it decodes to. -/
theorem decodeHost_ok {cw : HostWord} {i : Instr} (h : decodeHost cw = .ok i) :
    hostWordOf i = cw ∧ (seqOpOf i).isSome = true := by
  unfold decodeHost at h
  split at h
  · rename_i hres
    have word : ∀ {n : Nat} (op : BitVec 4) (x : BitVec 24), (cw.extractLsb' 28 4).toNat = n → op.toNat = n →
        x = cw.extractLsb' 0 24 → hostWord op x = cw := fun op x hop hn hx => by
      rw [hx, BitVec.eq_of_toNat_eq (hn.trans hop.symm), hostWord_fields hres]
    split at h
    case h_3 hop =>
      obtain ⟨hz, rfl⟩ := formatCR_ok.mp h
      exact ⟨word 3 _ hop rfl (hz ▸ operands_bytes cw), rfl⟩
    case h_4 hop =>
      obtain ⟨hz, rfl⟩ := formatC_ok.mp h
      exact ⟨word 4 _ hop rfl (hz ▸ operands_half cw), rfl⟩
    case h_6 hop =>
      obtain ⟨hz, rfl⟩ := formatC_ok.mp h
      exact ⟨word 6 _ hop rfl (hz ▸ operands_half cw), rfl⟩
    case h_9 hop =>
      cases h
      exact ⟨word 9 _ hop rfl (operands_half cw), rfl⟩
    case h_10 => cases h
    all_goals
      rename_i hop
      obtain ⟨hz, rfl⟩ := formatN_ok.mp h
      exact ⟨word _ _ hop rfl hz.symm, rfl⟩
  · cases h

end Sys2Proof.Machine
end

section
/-! PROOFS. What the operations of SEQ are made of: `State.SeqWrite` lists the writes of a step of any of them, so
that what every such write keeps, every operation keeps (R30, R162 to R165). -/

namespace Sys2Proof.Machine

open Sys2Proof

/-! ## The writes of SEQ -/

/-- One write of SEQ: to its registers, to RANGE with a legal code, to the history, to the buffer and its lock, to
chip-select, or a request of FT. -/
inductive State.SeqWrite : State → State → Prop
  | regs (s : State) (drv : DrvState) (armed : Bool) (stage : Vector Code 8) (svalid : BitVec 8) (k : Nat) :
      SeqWrite s { s with drvState := drv, autoArmed := armed, stage := stage, svalid := svalid, seqK := k }
  | ranges (s : State) (range : Vector Byte 8) (h : ∀ c : Chan, range[c] = s.range[c] ∨ range[c].toNat ≤ 6) :
      SeqWrite s { s with range := range }
  | event (s : State) (e : Event) (h : e.isOpP = false) : SeqWrite s (s.emit e)
  | respond (s : State) (r : Response) : SeqWrite s (s.respondP r)
  | buffer (s : State) (code : Vector Code 8) (valid : BitVec 8) : SeqWrite s (s.writeBuffer code valid)
  | release (s : State) : SeqWrite s { s with bufLock := .free }
  | deassert (s : State) : SeqWrite s { s with ft := { s.ft with cs := .deasserted } }
  | request (s : State) (kind : ReqKind) (w : Width) (tx : TxWord) : SeqWrite s (s.request kind w tx).1

/-- Any number of writes of SEQ. -/
abbrev State.SeqWrites : State → State → Prop := Relation.ReflTransGen State.SeqWrite

namespace State.SeqWrites

theorem refl (s : State) : s.SeqWrites s := Relation.ReflTransGen.refl

theorem regs {s t : State} (drv : DrvState) (armed : Bool) (stage : Vector Code 8) (svalid : BitVec 8) (k : Nat)
    (ht : t = { s with drvState := drv, autoArmed := armed, stage := stage, svalid := svalid, seqK := k } := by rfl) :
    s.SeqWrites t :=
  ht ▸ .single (.regs s drv armed stage svalid k)

theorem ite {s a b : State} {p : Prop} [Decidable p] (ha : s.SeqWrites a) (hb : s.SeqWrites b) :
    s.SeqWrites (if p then a else b) := by
  split
  · exact ha
  · exact hb

end State.SeqWrites

/-! ## The named operations as writes -/

section
variable (s : State)

theorem State.goto_writes (k : Nat) : s.SeqWrites (s.goto k) :=
  .regs s.drvState s.autoArmed s.stage s.svalid k

theorem State.setDrvState_writes (drv : DrvState) : s.SeqWrites { s with drvState := drv } :=
  .regs drv s.autoArmed s.stage s.svalid s.seqK

theorem State.setArmed_writes (armed : Bool) : s.SeqWrites { s with autoArmed := armed } :=
  .regs s.drvState armed s.stage s.svalid s.seqK

theorem State.capture_writes (c : Chan) (rx : BitVec 32) : s.SeqWrites (s.capture c rx) :=
  .regs s.drvState s.autoArmed (s.stage.set c (rx.extractLsb' 0 16)) (setFlag s.svalid c) s.seqK

theorem State.emit_writes {e : Event} (h : e.isOpP = false) : s.SeqWrites (s.emit e) := .single (.event s e h)

theorem State.respondP_writes (r : Response) : s.SeqWrites (s.respondP r) := .single (.respond s r)

theorem State.raise_writes (st : Status) : s.SeqWrites (s.raise st) := s.respondP_writes _

theorem State.raiseConfigFault_writes : s.SeqWrites s.raiseConfigFault :=
  (State.SeqWrites.regs .uninitialized false s.stage s.svalid s.seqK).trans (State.raise_writes _ _)

theorem State.commit_writes (code : Vector Code 8) (valid : BitVec 8) : s.SeqWrites (s.commit code valid) :=
  .tail (.single (.buffer s code valid)) (.event _ _ rfl)

theorem State.snapshot_writes : s.SeqWrites (s.snapshot .P).1 :=
  .tail (.single (.release s)) (.event _ _ rfl)

theorem State.nextOr_writes (k : Nat) (r : FtReply) (f : Nat) : s.SeqWrites (s.nextOr k r f) :=
  .ite (s.goto_writes _) (s.goto_writes _)

theorem State.request_writes (kind : ReqKind) (w : Width) (tx : TxWord) : s.SeqWrites (s.request kind w tx).1 :=
  .single (.request s kind w tx)

theorem State.command_writes (cmd : BitVec 16) : s.SeqWrites (s.command cmd).1 := s.request_writes _ _ _

theorem State.regWrite_writes (a : BitVec 7) (v : Byte) : s.SeqWrites (s.regWrite a v).1 := s.request_writes _ _ _

end

/-! ## The operations of 41, 42 and 43 -/

/-- An operation made of writes of SEQ. -/
structure SeqOp.Writes (op : SeqOp) : Prop where
  step : ∀ (k : Nat) (s : State), s.SeqWrites (op.step k s).1
  reply : ∀ (k : Nat) (r : FtReply) (s : State), s.SeqWrites (op.reply k r s)

theorem SeqOp.Writes.micro {op : SeqOp} (h : op.Writes) (s : State) : s.SeqWrites (op.micro s) := by
  have hs := h.step s.seqK s
  unfold SeqOp.micro
  split <;> rename_i ht <;> rw [ht] at hs
  · exact hs
  · exact hs.trans (h.reply _ _ _)

theorem resetOp_writes : resetOp.Writes where
  step k s := by
    rcases k with _ | _ | _ | _ | _ | _ | _ | k
    · have hranges : s.SeqWrites { s with range := Vector.replicate 8 rangeDefault } :=
        .single (.ranges s _ fun c => .inr (by simp [rangeDefault]))
      refine hranges.trans (.trans (State.SeqWrites.regs .resetting false s.stage s.svalid s.seqK) ?_)
      exact .trans (.single (.buffer _ s.code 0)) (State.goto_writes _ 1)
    · exact .trans (.tail (.single (.deassert s)) (.event _ .csDeassert rfl)) (State.goto_writes _ 2)
    · exact (s.emit_writes rfl).trans (State.goto_writes _ 3)
    · exact s.command_writes _
    · exact (s.emit_writes rfl).trans (State.goto_writes _ 5)
    · exact s.regWrite_writes _ _
    · exact (s.setDrvState_writes _).trans (State.respondP_writes _ _)
    · exact s.raiseConfigFault_writes
  reply k r s := s.nextOr_writes k r 7

theorem powerOnAllOp_writes : powerOnAllOp.Writes where
  step k s := by
    rcases k with _ | _ | k
    · exact (s.setArmed_writes false).trans (State.goto_writes _ 1)
    · exact s.regWrite_writes _ _
    · exact s.respondP_writes _
  reply _ _ s := .ite (s.goto_writes _) s.raiseConfigFault_writes

theorem illegalOperandOp_writes : illegalOperandOp.Writes where
  step _ s := s.raise_writes _
  reply _ _ s := .refl s

theorem setRangeOp_writes (ch rg : Byte) : (setRangeOp ch rg).Writes := by
  unfold setRangeOp
  split
  · rename_i c _
    split
    · rename_i hrg
      refine ⟨fun k s => ?_, fun _ _ s => .ite (s.goto_writes _) s.raiseConfigFault_writes⟩
      rcases k with _ | _ | k
      · exact s.goto_writes 1
      · exact (s.setArmed_writes false).trans (State.regWrite_writes _ _ _)
      · have hset : s.SeqWrites { s with range := s.range.set c rg } := .single <| .ranges s _ fun d => by
          by_cases h : c.val = d.val
          · exact .inr (by simpa [h] using (decide_eq_true_iff.mp hrg))
          · exact .inl (Vector.getElem_set_ne _ _ h)
        exact hset.trans (State.respondP_writes _ _)
    · exact illegalOperandOp_writes
  · exact illegalOperandOp_writes

theorem getRangeOp_writes (ch : Byte) : (getRangeOp ch).Writes := by
  unfold getRangeOp
  split
  · exact ⟨fun _ s => s.respondP_writes _, fun _ _ s => .refl s⟩
  · exact illegalOperandOp_writes

theorem enterScanOp_writes : enterScanOp.Writes where
  step k s := by
    rcases k with _ | _ | _ | k
    · exact .ite (s.raise_writes _) (.ite (s.goto_writes _) (s.goto_writes _))
    · exact (s.setArmed_writes false).trans (State.regWrite_writes _ _ _)
    · exact s.command_writes _
    · exact (s.setDrvState_writes _).trans (State.respondP_writes _ _)
  reply _ _ s := .ite (.ite ((s.setArmed_writes true).trans (State.goto_writes _ 3)) (s.goto_writes _))
    s.raiseConfigFault_writes

theorem readChOp_writes (ch : Byte) : (readChOp ch).Writes := by
  unfold readChOp
  split
  · rename_i c _
    refine ⟨fun k s => ?_, fun _ r s =>
      .ite (.ite ((s.capture_writes c r.rx).trans (State.goto_writes _ 3)) (s.goto_writes _)) (s.goto_writes _)⟩
    rcases k with _ | _ | _ | _ | k
    · exact .ite (s.goto_writes _) (s.raise_writes _)
    · exact (State.SeqWrites.regs s.drvState false s.stage (clearFlag s.svalid c) s.seqK).trans
        (State.command_writes _ _)
    · exact s.command_writes _
    · exact (s.commit_writes _ _).trans (State.respondP_writes _ _)
    · exact (s.commit_writes _ _).trans (State.raise_writes _ _)
  · exact ⟨fun _ s => .ite (s.raise_writes _) (s.raise_writes _), fun _ _ s => .refl s⟩

theorem scanStart_writes (s : State) : s.SeqWrites (scanStart s) :=
  .ite (.regs s.drvState s.autoArmed s.stage 0 1) (s.raise_writes _)

theorem scanDone_writes (s : State) : s.SeqWrites (scanDone s) :=
  (s.commit_writes _ _).trans (State.respondP_writes _ _)

theorem scanFault_writes (s : State) : s.SeqWrites (scanFault s) :=
  (s.setArmed_writes false).trans ((State.commit_writes _ _ _).trans (State.respondP_writes _ _))

theorem scanManualStep_writes (k : Nat) (s : State) : s.SeqWrites (scanManualStep k s).1 := by
  unfold scanManualStep
  split
  · exact scanStart_writes s
  · exact s.command_writes _
  · exact scanDone_writes s
  · split
    · exact s.command_writes _
    · exact scanFault_writes s

theorem scanAutoStep_writes (k : Nat) (s : State) : s.SeqWrites (scanAutoStep k s).1 := by
  unfold scanAutoStep
  split
  · exact scanStart_writes s
  · split
    · exact s.goto_writes _
    · exact s.command_writes _
  · exact (s.setArmed_writes false).trans (State.command_writes _ _)
  · exact s.command_writes _
  · exact scanDone_writes s
  · split
    · exact s.command_writes _
    · exact scanFault_writes s

theorem scanManualReply_writes (k : Nat) (r : FtReply) (s : State) : s.SeqWrites (scanManualReply k r s) :=
  .ite (.ite (s.goto_writes _) ((s.capture_writes _ _).trans (State.goto_writes _ _))) (s.goto_writes _)

theorem scanAutoReply_writes (k : Nat) (r : FtReply) (s : State) : s.SeqWrites (scanAutoReply k r s) :=
  .ite (.ite ((s.setArmed_writes true).trans (State.goto_writes _ 2))
    (.ite ((s.capture_writes 7 r.rx).trans ((State.setArmed_writes _ true).trans (State.goto_writes _ 10)))
      ((s.capture_writes _ _).trans (State.goto_writes _ _)))) (s.goto_writes _)

theorem scanAllOp_writes : scanAllOp.Writes where
  step k s := by
    simp only [scanAllOp]
    split
    · exact scanManualStep_writes k s
    · exact scanAutoStep_writes k s
  reply k r s := by
    simp only [scanAllOp]
    split
    · exact scanManualReply_writes k r s
    · exact scanAutoReply_writes k r s

theorem getCodesOp_writes : getCodesOp.Writes where
  step _ s := s.snapshot_writes.trans (State.respondP_writes _ _)
  reply _ _ s := .refl s

theorem toVoltageOp_writes (code : Code) (rg : Byte) : (toVoltageOp code rg).Writes where
  step _ s := s.respondP_writes _
  reply _ _ s := .refl s

theorem seqOpOf_writes {i : Instr} {op : SeqOp} (h : seqOpOf i = some op) : op.Writes := by
  cases i with
  | reset => exact SeqOp.of_some resetOp_writes h
  | powerOnAll => exact SeqOp.of_some powerOnAllOp_writes h
  | setRange ch rg => exact SeqOp.of_some (setRangeOp_writes ch rg) h
  | getRange ch => exact SeqOp.of_some (getRangeOp_writes ch) h
  | enterScan => exact SeqOp.of_some enterScanOp_writes h
  | readCh ch => exact SeqOp.of_some (readChOp_writes ch) h
  | scanAll => exact SeqOp.of_some scanAllOp_writes h
  | getCodes => exact SeqOp.of_some getCodesOp_writes h
  | toVoltage code rg => exact SeqOp.of_some (toVoltageOp_writes code rg) h
  | _ => exact absurd h (Option.some_ne_none op).symm

/-! ## `exec` and the words of a port, as equations -/

theorem exec_portP {i : Instr} {op : SeqOp} {s : State} (h : seqOpOf i = some op) (hp : s.port = .P) :
    exec i s = .next (op.run seqFuel (s.acceptP (hostWordOf i))) := by
  have hexec : exec i s = op.exec i s := by
    cases i <;> cases h <;> simp only [exec, execGetCodes, execToVoltage, hp] <;> rfl
  exact hexec.trans (op.exec_P i hp)

/-- An instruction of a host word on port C is answered as any word of port C is (R38). -/
theorem exec_portC {i : Instr} {s : State} (h : (seqOpOf i).isSome = true) (hp : s.port = .C) :
    exec i s = .next (s.serveC (hostWordOf i)) := by
  have hd := decodeHost_hostWordOf h
  cases i with
  | reset | powerOnAll | setRange | getRange | enterScan | readCh | scanAll =>
    simp only [State.serveC, hd]
    exact SeqOp.exec_C _ _ hp
  | getCodes => simp only [State.serveC, hd, exec, execGetCodes, hp]
  | toVoltage code rg => simp only [State.serveC, hd, exec, execToVoltage, hp]
  | _ => cases h

/-- The request that an instruction of the two other levels makes of FT; none where it is illegal (R107). -/
def benchFrame (c : Config) : Instr → Option (ReqKind × Width × TxWord)
  | .transact wsel payload => (widthOfWsel wsel).map fun w => (.transact, w, payload)
  | .writeReg a v => some (.writeReg, .w24, regFrame a v)
  | i => match encode c i with
    | .frame w tx => some (.transact, w, tx)
    | _ => none

/-- A bench's request, illegal where there is none. -/
def State.benchRun (s : State) : Option (ReqKind × Width × TxWord) → State
  | some (kind, w, tx) => s.benchRequest kind w tx
  | none => s.illegalRequest

/-- An instruction that is no operation of SEQ makes its request in SEQ's place (R130). -/
theorem exec_bench {i : Instr} (s : State) (h : seqOpOf i = none) :
    exec i s = .next (s.benchRun (benchFrame s.cfg i)) := by
  cases i with
  | reset | powerOnAll | setRange | getRange | enterScan | readCh | scanAll | getCodes | toVoltage => cases h
  | transact wsel payload =>
    simp only [exec, execTransact, benchFrame]
    cases widthOfWsel wsel <;> rfl
  | _ => rfl

/-- A word of port C is answered, whatever is in progress (R38). -/
theorem State.runWord_C (s : State) (cw : HostWord) :
    ∃ p, s.runWord .C cw = .next ({ s with port := p }.serveC cw) := by
  unfold State.runWord
  split
  · rename_i i hd
    obtain ⟨rfl, hi⟩ := decodeHost_ok hd
    exact ⟨.C, exec_portC hi rfl⟩
  · rename_i e hd
    exact ⟨s.port, by simp only [State.serveC, hd, State.illegalWord]⟩

end Sys2Proof.Machine
end

section
/-! PROOFS. While `busy = 1` port P accepts nothing (R27, R37): `State.KeepsWord` says what a step of FT or SEQ leaves
of the word in progress, of the acceptances and of the waiting words. -/

namespace Sys2Proof.Machine

open Sys2Proof

/-- `t` has the waiting inputs and the acceptances of `s`, and is busy only with the word that `s` is busy with. -/
structure State.KeepsWord (s t : State) : Prop where
  inbox : t.inbox = s.inbox
  word : t.busy = true → s.busy = true ∧ t.curCw = s.curCw
  ops : t.hist.filter Event.isOpP = s.hist.filter Event.isOpP

namespace State.KeepsWord

/-- Events that are no acceptance are added, and the word in progress stays. -/
theorem of_hist {s t : State} {evs : List Event} (hist : t.hist = s.hist ++ evs)
    (hevs : evs.filter Event.isOpP = []) (inbox : t.inbox = s.inbox := by rfl)
    (word : t.busy = true → s.busy = true ∧ t.curCw = s.curCw := by exact fun h => ⟨h, rfl⟩) : s.KeepsWord t :=
  ⟨inbox, word, by rw [hist, List.filter_append, hevs, List.append_nil]⟩

theorem same {s t : State} (hist : t.hist = s.hist := by rfl) (inbox : t.inbox = s.inbox := by rfl)
    (word : t.busy = true → s.busy = true ∧ t.curCw = s.curCw := by exact fun h => ⟨h, rfl⟩) : s.KeepsWord t :=
  ⟨inbox, word, by rw [hist]⟩

theorem refl (s : State) : s.KeepsWord s := same

theorem trans {s t u : State} (h : s.KeepsWord t) (h' : t.KeepsWord u) : s.KeepsWord u where
  inbox := h'.inbox.trans h.inbox
  word hu :=
    have ⟨ht, hut⟩ := h'.word hu
    have ⟨hs, hts⟩ := h.word ht
    ⟨hs, hut.trans hts⟩
  ops := h'.ops.trans h.ops

end State.KeepsWord

theorem State.request_keepsWord (s : State) (kind : ReqKind) (w : Width) (tx : TxWord) :
    s.KeepsWord (s.request kind w tx).1 := by
  rcases s.request_cases kind w tx with ⟨b, _, h⟩ | ⟨a, b, rx, _, _, h⟩ | ⟨a, b, _, _, h⟩ <;> rw [h]
  · exact .same
  · exact .of_hist rfl rfl
  · exact .of_hist rfl (by cases a <;> rfl)

theorem State.SeqWrites.keepsWord {s t : State} (h : s.SeqWrites t) : s.KeepsWord t := by
  induction h with
  | refl => exact .refl s
  | tail _ hw ih =>
    refine ih.trans ?_
    cases hw with
    | event e he => exact .of_hist rfl (by simp [he])
    | respond r => exact .of_hist rfl rfl rfl nofun
    | request kind w tx => exact State.request_keepsWord _ kind w tx
    | _ => exact .same

/-- Port C's events are no acceptances on port P (R38). -/
theorem State.serveAll_keepsWord (s : State) (cws : List HostWord) : s.KeepsWord (s.serveAll cws) := by
  obtain ⟨r, evs, lock, hevs, _, h⟩ := State.serveAll_frame cws s
  rw [h]
  refine .of_hist rfl (List.filter_eq_nil_iff.mpr fun e he hop => ?_)
  have hsees := hevs e he
  cases e with
  | op p cw => cases p with
    | P => cases hsees
    | C => cases hop
  | _ => cases hop

theorem State.hwReset_keepsWord (s : State) (k : Straps) : s.KeepsWord (s.hwReset k) := .same rfl rfl nofun

/-! ## Steps of FT and of SEQ -/

/-- The end of the shifting (R143): DEV has received the frame, unless it faulted and DEV did not act on it. -/
theorem State.endShift_eq (s : State) :
    s.endShift = { s with
      dev := if (s.ft.err && !s.ft.acts) = true then s.dev else s.dev.receive s.cfg s.ft.w s.ft.shTx
      ft := { s.ft with cs := .deasserted, mosi := false, settleCnt := s.cfg.settleTicks, state := .settle } } := by
  unfold State.endShift
  split <;> rfl

/-- All that a step in `ft_state = Shift` can do: end the shifting, take a bit, take a gap, or drop one. -/
theorem State.shiftStep_cases (s : State) :
    s.shiftStep = s.endShift ∨
    (∃ miso err acts l, s.ft.bitcnt < s.ft.w.bits ∧
      s.shiftStep = { s with lineIn := l, ft := s.ft.shiftBit miso err acts }) ∨
    (∃ err acts l, s.shiftStep = { s with lineIn := l, ft := { s.ft with err := err, acts := acts } }) ∨
    ∃ l, s.shiftStep = { s with lineIn := l } := by
  unfold State.shiftStep
  split
  · exact .inl rfl
  · rename_i hgo
    have hlt : s.ft.bitcnt < s.ft.w.bits := by simp at hgo; omega
    split
    · exact .inr (.inr (.inr ⟨_, rfl⟩))
    · exact .inr (.inl ⟨_, _, _, _, hlt, rfl⟩)
    · split
      · exact .inr (.inr (.inl ⟨_, _, _, rfl⟩))
      · exact .inr (.inr (.inr ⟨_, rfl⟩))

/-- All that the last step of a frame can do: reply to the bench, or finish the micro-step of the operation in
progress (R144). -/
theorem State.finishFrame_cases (s : State) :
    (s.bench = true ∧
      s.finishFrame = { s.endSettle.1 with busy := false, bench := false, ftReply := some s.endSettle.2 }) ∨
    (s.bench = false ∧ ∃ op, s.currentOp = some op ∧
      s.finishFrame = op.reply s.seqK s.endSettle.2 s.endSettle.1) ∨
    (s.bench = false ∧ s.currentOp = none ∧ s.finishFrame = s.endSettle.1) :=
  s.endSettle.1.takeReply_cases s.endSettle.2

theorem State.shiftStep_keepsWord (s : State) : s.KeepsWord s.shiftStep := by
  rcases s.shiftStep_cases with h | ⟨_, _, _, _, _, h⟩ | ⟨_, _, _, h⟩ | ⟨_, h⟩ <;> rw [h]
  · rw [s.endShift_eq]; exact .same
  · exact .same
  · exact .same
  · exact .same

theorem State.finishFrame_keepsWord (s : State) : s.KeepsWord s.finishFrame := by
  have hsettle : s.KeepsWord s.endSettle.1 := .of_hist rfl rfl
  rcases s.finishFrame_cases with ⟨_, h⟩ | ⟨_, op, hop, h⟩ | ⟨_, _, h⟩ <;> rw [h]
  · exact hsettle.trans (.same rfl rfl nofun)
  · obtain ⟨i, hi⟩ := State.currentOp_seqOpOf hop
    exact hsettle.trans ((seqOpOf_writes hi).reply _ _ _).keepsWord
  · exact hsettle

theorem State.tick_keepsWord {f : State → State} (hf : ∀ s : State, s.KeepsWord (f s)) (s : State) :
    s.KeepsWord (s.tick f) := by
  have hpop : ∀ l, s.KeepsWord { s with slots := l } := fun _ => .same
  rcases s.tick_cases f with ⟨_, ht⟩ | ⟨l, _, ht⟩ | ⟨cws, l, _, ht⟩ | ⟨cws, l, _, ht⟩ | ⟨k, l, _, ht⟩ <;> rw [ht]
  · exact hf s
  · exact (hpop l).trans (hf _)
  · exact (hpop l).trans ((State.serveAll_keepsWord _ cws).trans (hf _))
  · exact (hpop l).trans ((hf _).trans (State.serveAll_keepsWord _ cws))
  · exact (hpop l).trans (State.hwReset_keepsWord _ k)

theorem SeqOp.Writes.run_keepsWord {op : SeqOp} (h : op.Writes) (n : Nat) (s : State) : s.KeepsWord (op.run n s) :=
  op.run_keeps (P := s.KeepsWord)
    (fun _ ht _ _ => ht.trans (State.tick_keepsWord (fun u => (h.micro u).keepsWord) _)) n s (.refl s)

theorem State.resume_keepsWord {s t : State} (h : s.resume = .next t) : s.KeepsWord t := by
  rcases s.resume_cases with ⟨_, _, op, hop, hr⟩ | ⟨_, _, _, hr⟩ | ⟨_, hr⟩ <;> cases hr.symm.trans h
  · obtain ⟨i, hi⟩ := State.currentOp_seqOpOf hop
    exact (seqOpOf_writes hi).run_keepsWord _ s
  · exact .refl s

theorem State.proceed_keepsWord {s t : State} (h : s.proceed = .next t) : s.KeepsWord t := by
  unfold State.proceed at h
  split at h
  · cases h; exact s.tick_keepsWord State.shiftStep_keepsWord
  · rcases s.settleStep_cases with ⟨_, hs⟩ | ⟨_, _, hs⟩ | ⟨_, _, _, hs⟩ <;> rw [hs] at h
    · cases h; exact s.tick_keepsWord fun _ => .same
    · exact (s.tick_keepsWord State.finishFrame_keepsWord).trans (State.resume_keepsWord h)
    · cases h
  · exact State.resume_keepsWord h

/-! ## The step -/

theorem step_legal {s : State} (hwf : s.cfg.wf = true) :
    step s = if s.busy = true then s.clearOutputs.stepBusy else s.clearOutputs.stepFree := if_pos hwf

/-- A step that answers a next state has legal parameters. -/
theorem wf_of_step_next {s t : State} (h : step s = .next t) : s.cfg.wf = true := by
  by_contra hwf
  cases h.symm.trans (step_illegalParameters hwf)

/-- A word of port C that is the next input is answered in this step, whatever is in progress (R38, R79). -/
theorem step_portC {s : State} {cw : HostWord} {l : List Input} (hwf : s.cfg.wf = true)
    (hin : s.inbox = .portC cw :: l) :
    ∃ p, step s = .next ({ s.clearOutputs with inbox := l, port := p }.serveC cw) := by
  obtain ⟨p, hp⟩ := State.runWord_C { s.clearOutputs with inbox := l } cw
  refine ⟨p, ?_⟩
  rw [step_legal hwf]
  split
  · rw [State.stepBusy, State.clearOutputs_inbox, hin]; exact hp
  · rw [State.stepFree, State.clearOutputs_inbox, hin]; exact hp

/-- All that a step can do while an operation or a frame is in progress: answer a word of port C, take a hardware
reset, or proceed, the waiting inputs kept (R79, R340, R357). -/
theorem step_busy_cases {s : State} (hwf : s.cfg.wf = true) (hb : s.busy = true) :
    (∃ cw l p, s.inbox = .portC cw :: l ∧
      step s = .next ({ s.clearOutputs with inbox := l, port := p }.serveC cw)) ∨
    (∃ k l, s.inbox = .rst k :: l ∧ step s = .next ({ s.clearOutputs with inbox := l }.hwReset k)) ∨
    step s = s.clearOutputs.proceed := by
  have hbusy : step s = s.clearOutputs.stepBusy := (step_legal hwf).trans (if_pos hb)
  rw [hbusy]
  unfold State.stepBusy
  split
  · rename_i cw l hin
    obtain ⟨p, hp⟩ := State.runWord_C { s.clearOutputs with inbox := l } cw
    exact .inl ⟨cw, l, p, hin, hp⟩
  · rename_i k l hin; exact .inr (.inl ⟨k, l, hin, rfl⟩)
  · exact .inr (.inr rfl)

/-- Settles O7: port C and hardware reset accept nothing on port P, and neither does any step of FT or SEQ. -/
theorem busyPortPAcceptsNothing : Obligations.BusyPortPAcceptsNothing := by
  intro s t hb h
  have hkeeps : ∀ {l}, ({ s.clearOutputs with inbox := l } : State).KeepsWord t →
      t.hist.filter Event.isOpP = s.hist.filter Event.isOpP ∧ (t.busy = true → t.curCw = s.curCw) :=
    fun hk => ⟨hk.ops, fun ht => (hk.word ht).2⟩
  rcases step_busy_cases (wf_of_step_next h) hb with ⟨cw, l, p, hin, ht⟩ | ⟨k, l, hin, ht⟩ | hp
  · cases ht.symm.trans h
    have hpop : ({ s.clearOutputs with inbox := l } : State).KeepsWord { s.clearOutputs with inbox := l, port := p } :=
      .same
    obtain ⟨hops, hword⟩ := hkeeps (hpop.trans (State.serveAll_keepsWord _ [cw]))
    exact ⟨hops, hword, fun cw' l' hin' => by cases hin.symm.trans hin'⟩
  · cases ht.symm.trans h
    obtain ⟨hops, hword⟩ := hkeeps (State.hwReset_keepsWord _ k)
    exact ⟨hops, hword, fun cw' l' hin' => by cases hin.symm.trans hin'⟩
  · have hk := State.proceed_keepsWord (hp.symm.trans h)
    exact ⟨hk.ops, fun ht => (hk.word ht).2, fun _ _ _ => hk.inbox⟩

end Sys2Proof.Machine
end

section
/-! PROOFS. Port C and the owner (R38, R74, R79): a step and an instruction from a state end, as the owner sees it, as
they end from its owner view, in which port C has left nothing; and a word of port C is answered at once. -/

namespace Sys2Proof.Machine

open Sys2Proof

/-! ## Outcomes with the same view -/

theorem ownerOutcome_next {t u : State} (h : t.ownerView = u.ownerView) :
    ownerOutcome (.next t) = ownerOutcome (.next u) := congrArg Host.Outcome.next h

/-- An outcome and its view's are the same to the owner. -/
theorem ownerOutcome_view {t u : State} (h : t.ownerView = u) : ownerOutcome (.next t) = ownerOutcome (.next u) :=
  ownerOutcome_next (by rw [← h, State.ownerView_ownerView])

/-! ## The lock and the slots of SEQ's writes -/

theorem State.SeqWrites.bufLock {s t : State} (h : s.SeqWrites t) (hs : s.bufLock = .free) : t.bufLock = .free := by
  induction h with
  | refl => exact hs
  | tail _ hw ih =>
    cases hw with
    | buffer => rfl
    | release => rfl
    | request kind w tx => exact (State.request_bufLock _ _ _ _).trans ih
    | _ => exact ih

/-! ## FT's steps, as the owner sees them -/

theorem State.endShift_ownerView (s : State) : s.endShift.ownerView = s.ownerView.endShift := by
  rw [s.endShift_eq, s.ownerView.endShift_eq]; rfl

theorem State.shiftStep_ownerView (s : State) : s.shiftStep.ownerView = s.ownerView.shiftStep := by
  have hline : s.ownerView.lineIn = s.lineIn := rfl
  unfold State.shiftStep
  refine ownerView_ite s.endShift_ownerView ?_
  rw [hline]
  cases s.lineIn with
  | nil => rfl
  | cons x l =>
    cases x with
    | bit => rfl
    | gap => exact ownerView_ite rfl rfl

theorem State.shiftStep_bufLock (s : State) : s.shiftStep.bufLock = s.bufLock := by
  rcases s.shiftStep_cases with h | ⟨_, _, _, _, _, h⟩ | ⟨_, _, _, h⟩ | ⟨_, h⟩ <;> rw [h]
  rw [s.endShift_eq]

theorem State.endSettle_ownerView (s : State) :
    s.ownerView.endSettle = (s.endSettle.1.ownerView, s.endSettle.2) :=
  Prod.ext (State.emit_ownerView { s with ft := _ } rfl).symm rfl

theorem State.takeReply_ownerView (s : State) (r : FtReply) :
    (s.takeReply r).ownerView = s.ownerView.takeReply r := by
  unfold State.takeReply
  refine ownerView_ite rfl ?_
  rw [State.ownerView_currentOp]
  cases h : s.currentOp with
  | none => rfl
  | some op => exact (State.currentOp_blind h).1.reply _ _ _

theorem State.finishFrame_ownerView (s : State) : s.finishFrame.ownerView = s.ownerView.finishFrame := by
  simp only [State.finishFrame, State.endSettle_ownerView, State.takeReply_ownerView]

theorem State.finishFrame_bufLock (s : State) (h : s.bufLock = .free) : s.finishFrame.bufLock = .free := by
  rcases s.finishFrame_cases with ⟨_, hf⟩ | ⟨_, op, hop, hf⟩ | ⟨_, _, hf⟩ <;> rw [hf]
  · exact h
  · obtain ⟨i, hi⟩ := State.currentOp_seqOpOf hop
    exact ((seqOpOf_writes hi).reply _ _ _).bufLock h
  · exact h

/-! ## A bench's request, as the owner sees it -/

theorem State.benchRequest_ownerView (s : State) (kind : ReqKind) (w : Width) (tx : TxWord) :
    (s.benchRequest kind w tx).ownerView = s.ownerView.benchRequest kind w tx := by
  unfold State.benchRequest
  rw [State.request_ownerView]
  rcases s.request kind w tx with ⟨t, _ | r⟩ <;> rfl

theorem State.benchRun_ownerView (s : State) (f : Option (ReqKind × Width × TxWord)) :
    (s.benchRun f).ownerView = s.ownerView.benchRun f := by
  cases f with
  | none => rfl
  | some f => exact s.benchRequest_ownerView _ _ _

/-! ## The machine while an operation or a frame is in progress -/

section
variable {s : State} (hs : s.bufLock = .free) (hr : s.NoRst)
include hs hr

theorem SeqOp.run_ownerView {i : Instr} {op : SeqOp} (h : seqOpOf i = some op) (n : Nat) :
    (op.run n s).ownerView = (op.run n s.ownerView).ownerView :=
  have ⟨hblind, hlock, hslots⟩ := seqOpOf_blind h
  hblind.run hlock hslots n s hs hr

theorem State.resume_ownerView : ownerOutcome s.resume = ownerOutcome s.ownerView.resume := by
  unfold State.resume
  split
  · rename_i hb
    rw [if_pos (show s.ownerView.busy = true ∧ s.ownerView.bench = false from hb), State.ownerView_currentOp]
    cases hop : s.currentOp with
    | none => rfl
    | some op =>
      obtain ⟨i, hi⟩ := State.currentOp_seqOpOf hop
      exact ownerOutcome_next (SeqOp.run_ownerView hs hr hi seqFuel)
  · rename_i hb
    rw [if_neg (show ¬(s.ownerView.busy = true ∧ s.ownerView.bench = false) from hb)]
    exact ownerOutcome_view rfl

theorem State.settleStep_ownerView : ownerOutcome s.settleStep = ownerOutcome s.ownerView.settleStep := by
  have hft : s.ownerView.ft = s.ft := rfl
  have hbench : s.ownerView.bench = s.bench := rfl
  unfold State.settleStep
  rw [hft, hbench, State.ownerView_currentOp]
  split
  · split
    · obtain ⟨hv, hlock⟩ := State.tick_ownerView State.finishFrame_ownerView State.finishFrame_bufLock hs hr
      have htick := State.tick_noRst (fun u => u.finishFrame_grows.slots) hr
      rw [State.resume_ownerView hlock htick, hv, State.tick_nil _ s.ownerView_slots]
    · rfl
  · rw [State.tick_nil _ s.ownerView_slots]
    exact ownerOutcome_view (State.tick_ownerView (f := State.settleTick) (fun _ => rfl) (fun _ h => h) hs hr).1

theorem State.proceed_ownerView : ownerOutcome s.proceed = ownerOutcome s.ownerView.proceed := by
  unfold State.proceed
  rw [State.ownerView_ft]
  cases s.ft.state with
  | shift =>
    show ownerOutcome (.next _) = ownerOutcome (.next _)
    rw [State.tick_nil _ s.ownerView_slots]
    exact ownerOutcome_view
      (State.tick_ownerView State.shiftStep_ownerView (fun u h => u.shiftStep_bufLock.trans h) hs hr).1
  | settle => exact State.settleStep_ownerView hs hr
  | idle => exact State.resume_ownerView hs hr

/-! ## Instructions and words -/

theorem exec_ownerView (i : Instr) : ownerOutcome (exec i s) = ownerOutcome (exec i s.ownerView) := by
  cases hop : seqOpOf i with
  | none =>
    rw [exec_bench s hop, exec_bench s.ownerView hop]
    exact ownerOutcome_view (s.benchRun_ownerView _)
  | some op =>
    cases hp : s.port with
    | P =>
      rw [exec_portP hop hp, exec_portP (s := s.ownerView) hop hp, ← State.acceptP_ownerView]
      exact ownerOutcome_next (SeqOp.run_ownerView (s := s.acceptP _) hs hr hop seqFuel)
    | C =>
      have hi : (seqOpOf i).isSome = true := Option.isSome_of_eq_some hop
      rw [exec_portC hi hp, exec_portC (s := s.ownerView) hi hp]
      refine ownerOutcome_next ?_
      rw [s.serveC_ownerView _ hs, s.ownerView.serveC_ownerView _ hs, State.ownerView_ownerView]

theorem State.runWord_ownerView (p : Port) (cw : HostWord) :
    ownerOutcome (s.runWord p cw) = ownerOutcome (s.ownerView.runWord p cw) := by
  unfold State.runWord
  split
  · exact exec_ownerView (s := { s with port := p }) hs hr _
  · cases p with
    | P =>
      refine ownerOutcome_view ((State.raise_ownerView _ _).trans ?_)
      rw [State.acceptP_ownerView]; rfl
    | C =>
      have hhide : ∀ u : State, (u.refuseC cw).ownerView = u.ownerView := fun u =>
        (State.emit_hidden { u.emit (.op .C cw) with cResp := _ } rfl).trans (u.emit_hidden rfl)
      exact ownerOutcome_next (by rw [State.illegalWord, State.illegalWord, hhide, hhide, State.ownerView_ownerView])

theorem State.runRequest_ownerView (rq : RequestWord) :
    ownerOutcome (s.runRequest rq) = ownerOutcome (s.ownerView.runRequest rq) := by
  unfold State.runRequest
  split
  · exact exec_ownerView hs hr _
  · exact ownerOutcome_view rfl

theorem State.runFrame_ownerView (w : Width) (tx : TxWord) :
    ownerOutcome (s.runFrame w tx) = ownerOutcome (s.ownerView.runFrame w tx) := by
  unfold State.runFrame
  rw [State.ownerView_cfg]
  split
  · exact exec_ownerView hs hr _
  · exact ownerOutcome_view (s.benchRequest_ownerView _ _ _)

end

/-! ## The owner's moves -/

theorem scriptMove_ownerView (fresh : Bool) (ws : List HostWord) (l : List Input) (s : State) :
    (scriptMove fresh ws l s).ownerView = scriptMove fresh ws l s.ownerView := by
  unfold scriptMove
  refine ownerView_ite rfl ?_
  cases ws <;> rfl

theorem schedStart_ownerView (now : Time) (s : State) :
    (schedStart now s).ownerView = schedStart now s.ownerView := ownerView_ite rfl rfl

theorem iterateMove_ownerView (scan8 : Bool) (now wake : Time) (l : List Input) (s : State) :
    (iterateMove scan8 now wake l s).ownerView = iterateMove scan8 now wake l s.ownerView := ownerView_ite rfl rfl

theorem schedReport_ownerView (s : State) : (schedReport s).ownerView = schedReport s.ownerView :=
  ownerView_ite rfl rfl

theorem schedFinish_ownerView (now wake : Time) (s : State) :
    (schedFinish now wake s).ownerView = schedFinish now wake s.ownerView :=
  ownerView_ite (ownerView_ite rfl rfl) rfl

/-! ## The step -/

section
variable {s : State} (hs : s.bufLock = .free) (hr : s.NoRst)
include hs hr

theorem State.stepFree_ownerView : ownerOutcome s.stepFree = ownerOutcome s.ownerView.stepFree := by
  have hin : s.ownerView.inbox = s.inbox := rfl
  unfold State.stepFree
  rw [hin]
  cases s.inbox with
  | nil => exact ownerOutcome_view rfl
  | cons x l =>
    cases x with
    | portP cw => exact State.runWord_ownerView (s := { s with inbox := l }) hs hr .P cw
    | portC cw => exact State.runWord_ownerView (s := { s with inbox := l }) hs hr .C cw
    | request rq => exact State.runRequest_ownerView (s := { s with inbox := l }) hs hr rq
    | frame w tx => exact State.runFrame_ownerView (s := { s with inbox := l }) hs hr w tx
    | rst k => exact ownerOutcome_view rfl
    | startup ranges now => exact ownerOutcome_view rfl
    | schedStart now => exact ownerOutcome_view (schedStart_ownerView now _)
    | iterate scan8 now wake => exact ownerOutcome_view (iterateMove_ownerView scan8 now wake l s)
    | report => exact ownerOutcome_view (schedReport_ownerView _)
    | finish now wake => exact ownerOutcome_view (schedFinish_ownerView now wake _)
    | sleepMicros n wake => exact ownerOutcome_view rfl
    | script fresh ws => exact ownerOutcome_view (scriptMove_ownerView fresh ws l s)

theorem State.stepBusy_ownerView : ownerOutcome s.stepBusy = ownerOutcome s.ownerView.stepBusy := by
  have hin : s.ownerView.inbox = s.inbox := rfl
  unfold State.stepBusy
  rw [hin]
  split
  · rename_i cw l _
    exact State.runWord_ownerView (s := { s with inbox := l }) hs hr .C cw
  · exact ownerOutcome_view rfl
  · exact State.proceed_ownerView hs hr

/-- A step from a state is, to the owner, the step from its owner view. -/
theorem step_ownerView : ownerOutcome (step s) = ownerOutcome (step s.ownerView) := by
  unfold step
  rw [State.ownerView_cfg, State.ownerView_busy]
  split
  · split
    · exact State.stepBusy_ownerView (s := s.clearOutputs) hs hr
    · exact State.stepFree_ownerView (s := s.clearOutputs) hs hr
  · rfl

end

/-- A word of port C gets a response, on the port the step has noted. -/
theorem State.serveC_answers (s : State) (cw : HostWord) :
    ∃ r, (s.serveC cw).cResp = some r ∧ (s.serveC cw).port = s.port := by
  obtain ⟨r, evs, _, ht | ht⟩ := s.serveC_frame cw <;> rw [ht] <;> exact ⟨r, rfl, rfl⟩

/-- Settles O14: both states step, and run an instruction, as their common owner view does. -/
theorem portCIsInvisibleToTheOwner : Obligations.PortCIsInvisibleToTheOwner := by
  intro s u hs hrs hru hview
  have hu : u.bufLock = .free := (congrArg State.bufLock hview).symm.trans hs
  refine ⟨?_, fun i => ?_⟩
  · rw [step_ownerView hs hrs, step_ownerView hu hru, hview]
  · rw [exec_ownerView hs hrs, exec_ownerView hu hru, hview]

/-- Settles O15: the word is served whatever is in progress, which the owner does not see. -/
theorem portCIsAlwaysServed : Obligations.PortCIsAlwaysServed := by
  intro s cw l hwf hs hin
  obtain ⟨p, hstep⟩ := step_portC hwf hin
  obtain ⟨r, hr, hport⟩ := State.serveC_answers { s.clearOutputs with inbox := l, port := p } cw
  refine ⟨_, r, hstep, hr, ?_⟩
  rw [hport]
  exact State.serveC_ownerView _ cw hs

end Sys2Proof.Machine
end

section
/-! PROOFS. The part of the invariant that no step list decides: FT's registers, RANGE, the lock and PR (R47 c, e, f).
Every write of SEQ, every step of FT and every word of port C keeps it, and hardware reset restores it. -/

namespace Sys2Proof.Machine

open Sys2Proof

/-! ## FT's registers (R47 c, R131, R146, R35) -/

/-- R47 (c) and the registers of FT, as the invariant has them. -/
structure Ft.Ok (ft : Ft) : Prop where
  cs : ft.cs = .asserted → ft.state = .shift
  idle : ft.state = .idle → ft.bitcnt = 0 ∧ ft.err = false ∧ ft.settleCnt = 0
  active : ft.state ≠ .idle → ft.pulses = ft.bitcnt ∧ ft.bitcnt ≤ ft.w.bits
  mosi : ft.state ≠ .shift → ft.mosi = false

theorem Ft.reset_ok : Ft.reset.Ok := ⟨nofun, fun _ => ⟨rfl, rfl, rfl⟩, fun h => absurd rfl h, fun _ => rfl⟩

theorem Ft.afterFrame_ok (kind : ReqKind) (w : Width) (tx : TxWord) (rx : BitVec 32) (pulses : Nat) :
    (Ft.afterFrame kind w tx rx pulses).Ok := ⟨nofun, fun _ => ⟨rfl, rfl, rfl⟩, fun h => absurd rfl h, fun _ => rfl⟩

theorem Ft.accept_ok (kind : ReqKind) (w : Width) (tx : TxWord) (ft : Ft) : (ft.accept kind w tx).Ok :=
  ⟨fun _ => rfl, nofun, fun _ => ⟨rfl, Nat.zero_le _⟩, fun h => absurd rfl h⟩

namespace Ft.Ok

variable {ft : Ft} (h : ft.Ok)
include h

theorem deassert : ({ ft with cs := .deasserted } : Ft).Ok := ⟨nofun, h.idle, h.active, h.mosi⟩

theorem afterFault (a : BusAnswer) (kind : ReqKind) (w : Width) (tx : TxWord) :
    (a.ftAfterFault ft kind w tx).Ok := by
  cases a with
  | fault rx bits acts => exact Ft.afterFrame_ok _ _ _ _ _
  | _ => exact h

/-- A bit before the last is followed by another one, or by the last (R142). -/
theorem shiftBit (hst : ft.state = .shift) (hlt : ft.bitcnt < ft.w.bits) (miso err acts : Bool) :
    (ft.shiftBit miso err acts).Ok where
  cs _ := hst
  idle hidle := nomatch hst.symm.trans hidle
  active _ := ⟨congrArg (· + 1) (h.active (by simp [hst])).1, hlt⟩
  mosi hne := absurd hst hne

theorem gap (hst : ft.state = .shift) (err acts : Bool) : ({ ft with err := err, acts := acts } : Ft).Ok :=
  ⟨h.cs, fun hidle => (nomatch hst.symm.trans hidle), h.active, h.mosi⟩

theorem endShift (hst : ft.state = .shift) (n : Nat) :
    ({ ft with cs := .deasserted, mosi := false, settleCnt := n, state := .settle } : Ft).Ok :=
  ⟨nofun, nofun, fun _ => h.active (by simp [hst]), fun _ => rfl⟩

theorem settleTick (hst : ft.state = .settle) (n : Nat) : ({ ft with settleCnt := n } : Ft).Ok :=
  ⟨h.cs, fun hidle => (nomatch hst.symm.trans hidle), h.active, h.mosi⟩

theorem endSettle (hst : ft.state = .settle) :
    ({ ft with state := .idle, bitcnt := 0, err := false, acts := false, settleCnt := 0 } : Ft).Ok where
  cs hcs := nomatch hst.symm.trans (h.cs hcs)
  idle _ := ⟨rfl, rfl, rfl⟩
  active hne := absurd rfl hne
  mosi _ := h.mosi (by simp [hst])

end Ft.Ok

/-! ## With RANGE, the lock and PR -/

/-- The clauses of the invariant on FT's registers, RANGE, the lock and PR. -/
structure State.Base (s : State) : Prop where
  ft : s.ft.Ok
  ranges : s.RangesOk
  lock : s.LockFree
  pr : Memory.wf s.cfg s.dev.pr = true

theorem Dev.afterFault_wf {c : Config} {d : Dev} (h : Memory.wf c d.pr = true) (a : BusAnswer) (w : Width)
    (tx : TxWord) : Memory.wf c (a.devAfterFault c d w tx).pr = true := by
  cases a with
  | fault rx bits acts =>
    cases acts
    · exact h
    · exact Dev.receive_wf c w tx d h
  | _ => exact h

/-- Hardware reset restores it but for PR, which it keeps (R340, R342). -/
theorem State.hwReset_base {s : State} (k : Straps) (h : Memory.wf s.cfg s.dev.pr = true) : (s.hwReset k).Base :=
  ⟨Ft.reset_ok, fun c => by simp [State.hwReset, rangeDefault], rfl, h⟩

namespace State.Base

variable {s : State} (h : s.Base)
include h

theorem congr {t : State} (ft : t.ft = s.ft := by rfl) (range : t.range = s.range := by rfl)
    (lock : t.bufLock = s.bufLock := by rfl) (cfg : t.cfg = s.cfg := by rfl) (dev : t.dev = s.dev := by rfl) :
    t.Base :=
  ⟨ft ▸ h.ft, fun c => range ▸ h.ranges c, lock.trans h.lock, by rw [cfg, dev]; exact h.pr⟩

theorem request (kind : ReqKind) (w : Width) (tx : TxWord) : (s.request kind w tx).1.Base := by
  rcases s.request_cases kind w tx with ⟨b, _, hr⟩ | ⟨a, b, rx, _, _, hr⟩ | ⟨a, b, _, _, hr⟩ <;> rw [hr]
  · exact ⟨Ft.accept_ok _ _ _ _, h.ranges, h.lock, h.pr⟩
  · exact ⟨Ft.afterFrame_ok _ _ _ _ _, h.ranges, h.lock, Dev.receive_wf _ _ _ _ h.pr⟩
  · exact ⟨h.ft.afterFault _ _ _ _, h.ranges, h.lock, Dev.afterFault_wf h.pr _ _ _⟩

theorem seqWrites {t : State} (hw : s.SeqWrites t) : t.Base := by
  induction hw with
  | refl => exact h
  | tail _ hw ih =>
    cases hw with
    | regs => exact ih.congr
    | ranges range hrange =>
      refine ⟨ih.ft, fun c => ?_, ih.lock, ih.pr⟩
      rcases hrange c with hc | hc
      · rw [hc]; exact ih.ranges c
      · exact hc
    | event => exact ih.congr
    | respond => exact ih.congr
    | buffer => exact ⟨ih.ft, ih.ranges, rfl, ih.pr⟩
    | release => exact ⟨ih.ft, ih.ranges, rfl, ih.pr⟩
    | deassert => exact ⟨ih.ft.deassert, ih.ranges, ih.lock, ih.pr⟩
    | request kind w tx => exact ih.request kind w tx

theorem shiftStep (hst : s.ft.state = .shift) : s.shiftStep.Base := by
  rcases s.shiftStep_cases with hs | ⟨miso, err, acts, l, hlt, hs⟩ | ⟨err, acts, l, hs⟩ | ⟨l, hs⟩ <;> rw [hs]
  · rw [s.endShift_eq]
    refine ⟨h.ft.endShift hst _, h.ranges, h.lock, ?_⟩
    dsimp only
    split
    · exact h.pr
    · exact Dev.receive_wf _ _ _ _ h.pr
  · exact ⟨h.ft.shiftBit hst hlt _ _ _, h.ranges, h.lock, h.pr⟩
  · exact ⟨h.ft.gap hst _ _, h.ranges, h.lock, h.pr⟩
  · exact h.congr

theorem endSettle (hst : s.ft.state = .settle) : s.endSettle.1.Base :=
  ⟨h.ft.endSettle hst, h.ranges, h.lock, h.pr⟩

theorem settleTick (hst : s.ft.state = .settle) : s.settleTick.Base :=
  ⟨h.ft.settleTick hst _, h.ranges, h.lock, h.pr⟩

end State.Base

end Sys2Proof.Machine
end

section
/-! PROOFS. The part of the invariant that the step lists decide: DRV_STATE, AUTO_ARMED and the step SEQ stands at
(R47 b, g, R30). For each operation, a step leaves SEQ at a step of its list where its registers fit, or ended. -/

namespace Sys2Proof.Machine

open Sys2Proof

/-! ## Where SEQ stands -/

/-- DRV_STATE and AUTO_ARMED as they are while SEQ does nothing: no RESET in progress, armed only under AutoSeq and
only in `Ready` (R47 b, g). -/
def State.Rested (s : State) : Prop :=
  s.drvState ≠ .resetting ∧ (s.autoArmed = true → s.straps.strategy = .autoSeq ∧ s.drvState = .ready)

/-- DRV_STATE and AUTO_ARMED as they are at the step where an operation stands. -/
def State.Stands (s : State) : Instr → Prop
  | .reset => s.drvState = .resetting ∧ s.autoArmed = false ∨ s.seqK = 0 ∧ s.Rested
  | .enterScan =>
    s.drvState ≠ .resetting ∧
      (s.seqK = 0 ∨
        ((s.drvState = .configuring ∨ s.drvState = .ready) ∧ (s.seqK = 3 ∨ s.straps.strategy = .autoSeq))) ∧
      (s.autoArmed = true →
        s.straps.strategy = .autoSeq ∧ (s.drvState = .ready ∨ (s.seqK = 3 ∧ s.drvState = .configuring)))
  | .readCh _ => s.Rested ∧ (s.seqK = 0 ∨ s.drvState = .ready)
  | .scanAll => s.Rested ∧ (s.seqK = 0 ∨ s.drvState = .ready)
  | _ => s.Rested

/-- SEQ stands at a step of the operation `op` of instruction `i`, waiting for FT only where the step sends a frame. -/
structure State.At (i : Instr) (op : SeqOp) (s : State) : Prop where
  busy : s.busy = true
  within : s.seqK < op.steps
  stands : s.Stands i
  frame : s.ft.state ≠ .idle → frameStep i s.seqK = true

/-- SEQ has nothing in progress and FT is idle. -/
structure State.Ended (s : State) : Prop where
  busy : s.busy = false
  idle : s.ft.state = .idle
  rested : s.Rested

theorem State.Rested.of_unarmed {s : State} (hdrv : s.drvState ≠ .resetting) (harmed : s.autoArmed = false) :
    s.Rested :=
  ⟨hdrv, fun h => nomatch harmed.symm.trans h⟩

/-- At its first step every operation may stand where SEQ rests. -/
theorem State.Rested.stands {s : State} (h : s.Rested) (hk : s.seqK = 0) (i : Instr) : s.Stands i := by
  cases i with
  | reset => exact .inr ⟨hk, h⟩
  | enterScan => exact ⟨h.1, .inl hk, fun ha => (h.2 ha).imp_right .inl⟩
  | readCh ch => exact ⟨h, .inl hk⟩
  | scanAll => exact ⟨h, .inl hk⟩
  | _ => exact h

/-- Clearing AUTO_ARMED, or a flag of the staging buffer, fits every step. -/
theorem State.Stands.unarmed {s : State} {i : Instr} (h : s.Stands i) (svalid : BitVec 8) :
    ({ s with autoArmed := false, svalid := svalid } : State).Stands i := by
  cases i with
  | reset => exact h.imp (fun hd => ⟨hd.1, rfl⟩) fun h0 => ⟨h0.1, .of_unarmed h0.2.1 rfl⟩
  | enterScan => exact ⟨h.1, h.2.1, nofun⟩
  | readCh ch => exact ⟨.of_unarmed h.1.1 rfl, h.2⟩
  | scanAll => exact ⟨.of_unarmed h.1.1 rfl, h.2⟩
  | _ => exact ⟨h.1, nofun⟩

/-- SEQ goes on to step `k`, where it does not wait for FT. -/
theorem State.At.of_idle {i : Instr} {op : SeqOp} {s : State} (k : Nat) (busy : s.busy = true)
    (idle : s.ft.state = .idle) (hk : s.seqK = k) (within : k < op.steps) (stands : s.Stands i) : s.At i op :=
  ⟨busy, hk ▸ within, stands, fun h => absurd idle h⟩

theorem State.At.unarmed {i : Instr} {op : SeqOp} {s : State} (h : s.At i op) (svalid : BitVec 8) :
    ({ s with autoArmed := false, svalid := svalid } : State).At i op :=
  ⟨h.busy, h.within, h.stands.unarmed svalid, h.frame⟩

/-! ## The steps that send a frame -/

theorem frameStep_reset {k : Nat} : frameStep .reset k = true ↔ k = 3 ∨ k = 5 := by
  show (k == 3 || k == 5) = true ↔ _
  simp

theorem frameStep_powerOnAll {k : Nat} : frameStep .powerOnAll k = true ↔ k = 1 := beq_iff_eq

theorem frameStep_setRange {ch rg : Byte} {k : Nat} : frameStep (.setRange ch rg) k = true ↔ k = 1 := beq_iff_eq

theorem frameStep_enterScan {k : Nat} : frameStep .enterScan k = true ↔ k = 1 ∨ k = 2 := by
  show (k == 1 || k == 2) = true ↔ _
  simp

theorem frameStep_readCh {ch : Byte} {k : Nat} : frameStep (.readCh ch) k = true ↔ k = 1 ∨ k = 2 := by
  show (k == 1 || k == 2) = true ↔ _
  simp

theorem frameStep_scanAll {k : Nat} : frameStep .scanAll k = true ↔ 1 ≤ k ∧ k ≤ 9 := by
  show (decide (1 ≤ k) && decide (k ≤ 9)) = true ↔ _
  simp

theorem frameStep_zero (i : Instr) : frameStep i 0 = false := by cases i <;> rfl

theorem ne_zero_of_frameStep {i : Instr} {k : Nat} (h : frameStep i k = true) : k ≠ 0 := by
  rintro rfl
  cases (frameStep_zero i).symm.trans h

/-! ## Operations that keep their places -/

/-- What a step of `op` may answer in `s`: a state that goes on or has ended, or a request made at this step. -/
def SeqOp.StepOk (op : SeqOp) (i : Instr) (s : State) (res : State × Option FtReply) : Prop :=
  (∃ t : State, res = noFrame t ∧ (t.At i op ∨ t.Ended)) ∨
    ∃ (u : State) (kind : ReqKind) (w : Width) (tx : TxWord),
      res = u.request kind w tx ∧ u.seqK = s.seqK ∧ u.At i op ∧ u.ft.state = .idle ∧ frameStep i u.seqK = true

/-- The steps of `op`, and the rests of its frame steps, leave SEQ at one of its steps or ended. -/
structure SeqOp.Sound (op : SeqOp) (i : Instr) : Prop where
  step : ∀ s : State, s.At i op → s.ft.state = .idle → op.StepOk i s (op.step s.seqK s)
  reply : ∀ (s : State) (r : FtReply), s.At i op → s.ft.state = .idle → frameStep i s.seqK = true →
    (op.reply s.seqK r s).At i op ∨ (op.reply s.seqK r s).Ended

theorem SeqOp.StepOk.goes {op : SeqOp} {i : Instr} {s t : State} (h : t.At i op) : op.StepOk i s (noFrame t) :=
  .inl ⟨t, rfl, .inl h⟩

theorem SeqOp.StepOk.ends {op : SeqOp} {i : Instr} {s t : State} (h : t.Ended) : op.StepOk i s (noFrame t) :=
  .inl ⟨t, rfl, .inr h⟩

theorem SeqOp.StepOk.sends {op : SeqOp} {i : Instr} {s u : State} (h : u.At i op) (idle : u.ft.state = .idle)
    (hframe : frameStep i u.seqK = true) (hk : u.seqK = s.seqK := by rfl) (kind : ReqKind) (w : Width) (tx : TxWord) :
    op.StepOk i s (u.request kind w tx) :=
  .inr ⟨u, kind, w, tx, rfl, hk, h, idle, hframe⟩

theorem State.respondP_ended {s : State} (r : Response) (idle : s.ft.state = .idle) (h : s.Rested) :
    (s.respondP r).Ended := ⟨rfl, idle, h⟩

theorem State.raiseConfigFault_ended {s : State} (idle : s.ft.state = .idle) : s.raiseConfigFault.Ended :=
  ⟨rfl, idle, nofun, nofun⟩

/-- The rest of a frame step of POWER_ON_ALL and SET_RANGE: on to the next step, or the configuration fault. -/
theorem State.At.goesOr {i : Instr} {op : SeqOp} {s : State} (h : s.At i op) (idle : s.ft.state = .idle) (r : FtReply)
    (within : s.seqK + 1 < op.steps) (stands : (s.goto (s.seqK + 1)).Stands i) :
    (if r.status = .ok then s.goto (s.seqK + 1) else s.raiseConfigFault).At i op ∨
      (if r.status = .ok then s.goto (s.seqK + 1) else s.raiseConfigFault).Ended := by
  split
  · exact .inl (.of_idle (s.seqK + 1) h.busy idle rfl within stands)
  · exact .inr (State.raiseConfigFault_ended idle)

/-- An operation of one step that answers in it. -/
theorem SeqOp.sound_of_answers {op : SeqOp} {i : Instr} (hsteps : op.steps = 1)
    (hrest : ∀ s : State, s.Stands i → s.Rested)
    (hstep : ∀ s : State, s.ft.state = .idle → s.Rested → ∃ t, op.step 0 s = noFrame t ∧ t.Ended) : op.Sound i := by
  have hzero : ∀ {s : State}, s.At i op → s.seqK = 0 := fun h => by
    have hk := h.within
    omega
  refine ⟨fun s h idle => ?_, fun s r h _ hframe => ?_⟩
  · obtain ⟨t, ht, hended⟩ := hstep s idle (hrest s h.stands)
    rw [hzero h, ht]
    exact .ends hended
  · exact absurd (hzero h) (ne_zero_of_frameStep hframe)

/-! ## The configuration operations -/

theorem resetOp_sound : resetOp.Sound .reset where
  step s h idle := by
    have hpast : s.seqK ≠ 0 → s.drvState = .resetting ∧ s.autoArmed = false := fun hk =>
      h.stands.resolve_right fun h0 => hk h0.1
    rcases hk : s.seqK with _ | _ | _ | _ | _ | _ | _ | k
    · exact .goes (.of_idle 1 h.busy idle rfl (by decide) (.inl ⟨rfl, rfl⟩))
    · exact .goes (.of_idle 2 h.busy idle rfl (by decide) (.inl (hpast (by omega))))
    · exact .goes (.of_idle 3 h.busy idle rfl (by decide) (.inl (hpast (by omega))))
    · exact .sends h idle (by rw [hk]; rfl) rfl _ _ _
    · exact .goes (.of_idle 5 h.busy idle rfl (by decide) (.inl (hpast (by omega))))
    · exact .sends h idle (by rw [hk]; rfl) rfl _ _ _
    · exact .ends (State.respondP_ended _ idle (.of_unarmed nofun (hpast (by omega)).2))
    · exact .ends (State.raiseConfigFault_ended idle)
  reply s r h idle hframe := by
    have hk := frameStep_reset.mp hframe
    have hpast : s.drvState = .resetting ∧ s.autoArmed = false :=
      h.stands.resolve_right fun h0 => ne_zero_of_frameStep hframe h0.1
    have hgoto : ∀ k < 8, (s.goto k).At .reset resetOp := fun k hlt => .of_idle k h.busy idle rfl hlt (.inl hpast)
    show (s.nextOr s.seqK r 7).At _ _ ∨ _
    unfold State.nextOr
    split
    · exact .inl (hgoto _ (by omega))
    · exact .inl (hgoto _ (by omega))

theorem powerOnAllOp_sound : powerOnAllOp.Sound .powerOnAll where
  step s h idle := by
    have hrest : s.Rested := h.stands
    rcases hk : s.seqK with _ | _ | k
    · exact .goes (.of_idle 1 h.busy idle rfl (by decide) (State.Rested.of_unarmed hrest.1 rfl))
    · exact .sends h idle (frameStep_powerOnAll.mpr hk) rfl _ _ _
    · exact .ends (State.respondP_ended _ idle hrest)
  reply s r h idle hframe := by
    have hk := frameStep_powerOnAll.mp hframe
    exact h.goesOr idle r (by rw [hk]; decide) h.stands

theorem illegalOperandOp_sound {i : Instr} (h : ∀ s : State, s.Stands i → s.Rested) : illegalOperandOp.Sound i :=
  SeqOp.sound_of_answers rfl h fun _ idle hrest => ⟨_, rfl, State.respondP_ended _ idle hrest⟩

theorem setRangeOp_sound (ch rg : Byte) : (setRangeOp ch rg).Sound (.setRange ch rg) := by
  unfold setRangeOp
  split
  · rename_i c _
    split
    · refine ⟨fun s h idle => ?_, fun s r h idle hframe => ?_⟩
      · have hrest : s.Rested := h.stands
        rcases hk : s.seqK with _ | _ | k
        · exact .goes (.of_idle 1 h.busy idle rfl (show 1 < 3 by decide) hrest)
        · exact .sends (h.unarmed s.svalid) idle (frameStep_setRange.mpr hk) rfl _ _ _
        · exact .ends (State.respondP_ended _ idle hrest)
      · have hk := frameStep_setRange.mp hframe
        exact h.goesOr idle r (show s.seqK + 1 < 3 by omega) h.stands
    · exact illegalOperandOp_sound fun _ h => h
  · exact illegalOperandOp_sound fun _ h => h

theorem getRangeOp_sound (ch : Byte) : (getRangeOp ch).Sound (.getRange ch) := by
  unfold getRangeOp
  split
  · exact SeqOp.sound_of_answers rfl (fun _ h => h) fun _ idle hrest => ⟨_, rfl, State.respondP_ended _ idle hrest⟩
  · exact illegalOperandOp_sound fun _ h => h

/-- ENTER_SCAN arms at step 2, one step before `Ready` (R47 b). -/
theorem enterScanOp_sound : enterScanOp.Sound .enterScan where
  step s h idle := by
    obtain ⟨hdrv, hpos, harmed⟩ := h.stands
    rcases hk : s.seqK with _ | _ | _ | k
    · have hready : s.autoArmed = true → s.straps.strategy = .autoSeq ∧ s.drvState = .ready := fun ha =>
        (harmed ha).imp_right fun hd => hd.resolve_right fun h3 => by omega
      show SeqOp.StepOk _ _ _ (noFrame (if _ then _ else if _ then _ else _))
      split
      · exact .ends (State.respondP_ended _ idle ⟨hdrv, hready⟩)
      · rename_i huninit
        have hentered : s.drvState = .configuring ∨ s.drvState = .ready := by
          cases hd : s.drvState <;> simp_all
        have hstands : ∀ {t : State}, t.drvState = s.drvState → t.autoArmed = s.autoArmed → t.straps = s.straps →
            (t.seqK = 3 ∨ t.straps.strategy = .autoSeq) → t.Stands .enterScan := fun ed ea es hgo =>
          ⟨ed ▸ hdrv, .inr ⟨ed ▸ hentered, hgo⟩, fun ha => by
            rw [es, ed]; exact (hready (ea ▸ ha)).imp_right .inl⟩
        split
        · exact .goes (.of_idle 3 h.busy idle rfl (by decide) (hstands rfl rfl rfl (.inl rfl)))
        · rename_i hmanual
          have hauto : s.straps.strategy = .autoSeq := by cases hst : s.straps.strategy <;> simp_all
          exact .goes (.of_idle 1 h.busy idle rfl (by decide) (hstands rfl rfl rfl (.inr hauto)))
    · exact .sends (h.unarmed s.svalid) idle (frameStep_enterScan.mpr (.inl hk)) rfl _ _ _
    · exact .sends h idle (frameStep_enterScan.mpr (.inr hk)) rfl _ _ _
    · exact .ends (State.respondP_ended _ idle ⟨nofun, fun ha => ⟨(harmed ha).1, rfl⟩⟩)
  reply s r h idle hframe := by
    obtain ⟨hdrv, hpos, harmed⟩ := h.stands
    have hk := frameStep_enterScan.mp hframe
    obtain ⟨hentered, hgo⟩ := hpos.resolve_left (ne_zero_of_frameStep hframe)
    have hauto : s.straps.strategy = .autoSeq := hgo.resolve_left (by omega)
    show (enterScanReply s.seqK r s).At _ _ ∨ (enterScanReply s.seqK r s).Ended
    unfold enterScanReply
    split
    · split
      · exact .inl (.of_idle 3 h.busy idle rfl (by decide)
          ⟨hdrv, .inr ⟨hentered, .inl rfl⟩, fun _ => ⟨hauto, hentered.symm.imp_right fun hd => ⟨rfl, hd⟩⟩⟩)
      · refine .inl (.of_idle 2 h.busy idle (by show s.seqK + 1 = 2; omega) (by decide)
          ⟨hdrv, .inr ⟨hentered, .inr hauto⟩, fun ha => ⟨hauto, .inl ?_⟩⟩)
        exact (harmed ha).2.resolve_right fun h3 => by omega
    · exact .inr (State.raiseConfigFault_ended idle)

/-! ## The read operations -/

theorem readChOp_sound (ch : Byte) : (readChOp ch).Sound (.readCh ch) := by
  unfold readChOp
  split
  · rename_i c _
    refine ⟨fun s h idle => ?_, fun s r h idle hframe => ?_⟩
    · obtain ⟨hrest, hpos⟩ := h.stands
      rcases hk : s.seqK with _ | _ | _ | _ | k
      · show SeqOp.StepOk _ _ _ (noFrame (if _ then _ else _))
        split
        · rename_i hready
          exact .goes (.of_idle 1 h.busy idle rfl (show 1 < 5 by decide) ⟨hrest, .inr hready⟩)
        · exact .ends (State.respondP_ended _ idle hrest)
      · exact .sends (h.unarmed (clearFlag s.svalid c)) idle (frameStep_readCh.mpr (.inl hk)) rfl _ _ _
      · exact .sends h idle (frameStep_readCh.mpr (.inr hk)) rfl _ _ _
      · exact .ends (State.respondP_ended _ idle hrest)
      · exact .ends (State.respondP_ended _ idle hrest)
    · obtain ⟨hrest, hpos⟩ := h.stands
      have hk := frameStep_readCh.mp hframe
      have hready := hpos.resolve_left (ne_zero_of_frameStep hframe)
      show (readChReply c s.seqK r s).At _ _ ∨ _
      unfold readChReply
      split
      · split
        · exact .inl (.of_idle 3 h.busy idle rfl (show 3 < 5 by decide) ⟨hrest, .inr hready⟩)
        · exact .inl (.of_idle (s.seqK + 1) h.busy idle rfl (show s.seqK + 1 < 5 by omega) ⟨hrest, .inr hready⟩)
      · exact .inl (.of_idle 4 h.busy idle rfl (show 4 < 5 by decide) ⟨hrest, .inr hready⟩)
  · refine SeqOp.sound_of_answers rfl (fun _ h => h.1) fun s idle hrest => ⟨_, rfl, ?_⟩
    split <;> exact State.respondP_ended _ idle hrest

section
variable {s : State} (h : s.At .scanAll scanAllOp) (idle : s.ft.state = .idle)
include h idle

theorem State.At.scanStart : (scanStart s).At .scanAll scanAllOp ∨ (scanStart s).Ended := by
  obtain ⟨hrest, _⟩ := h.stands
  unfold Machine.scanStart
  split
  · rename_i hready
    exact .inl (.of_idle 1 h.busy idle rfl (by decide) ⟨hrest, .inr hready⟩)
  · exact .inr (State.respondP_ended _ idle hrest)

theorem State.At.scanDone : (scanDone s).Ended := State.respondP_ended _ idle h.stands.1

theorem State.At.scanFault : (scanFault s).Ended := State.respondP_ended _ idle (.of_unarmed h.stands.1.1 rfl)

theorem scanManualStep_ok : scanAllOp.StepOk .scanAll s (scanManualStep s.seqK s) := by
  unfold scanManualStep
  split
  · exact .inl ⟨_, rfl, h.scanStart idle⟩
  · rename_i hk
    exact .sends h idle (frameStep_scanAll.mpr (by omega)) rfl _ _ _
  · exact .ends (h.scanDone idle)
  · rename_i k _ _ hk
    split
    · exact .sends h idle (frameStep_scanAll.mpr (by omega)) rfl _ _ _
    · exact .ends (h.scanFault idle)

theorem scanAutoStep_ok : scanAllOp.StepOk .scanAll s (scanAutoStep s.seqK s) := by
  obtain ⟨hrest, hpos⟩ := h.stands
  unfold scanAutoStep
  split
  · exact .inl ⟨_, rfl, h.scanStart idle⟩
  · rename_i hk
    split
    · exact .goes (.of_idle 2 h.busy idle rfl (by decide) ⟨hrest, .inr (hpos.resolve_left (by omega))⟩)
    · exact .sends h idle (frameStep_scanAll.mpr (by omega)) rfl _ _ _
  · rename_i hk
    exact .sends (h.unarmed s.svalid) idle
      (frameStep_scanAll.mpr (by show 1 ≤ s.seqK ∧ s.seqK ≤ 9; omega)) rfl _ _ _
  · rename_i hk
    exact .sends h idle (frameStep_scanAll.mpr (by omega)) rfl _ _ _
  · exact .ends (h.scanDone idle)
  · split
    · rename_i hzero _ _ _ _ hlt
      exact .sends h idle (frameStep_scanAll.mpr ⟨Nat.pos_of_ne_zero hzero, hlt.le⟩) rfl _ _ _
    · exact .ends (h.scanFault idle)

end

/-- A pass arms only under AutoSeq, past the check of step 0 (R47 b). -/
theorem scanAllOp_sound : scanAllOp.Sound .scanAll where
  step s h idle := by
    simp only [scanAllOp]
    split
    · exact scanManualStep_ok h idle
    · exact scanAutoStep_ok h idle
  reply s r h idle hframe := by
    obtain ⟨hrest, hpos⟩ := h.stands
    have hk := frameStep_scanAll.mp hframe
    have hready := hpos.resolve_left (ne_zero_of_frameStep hframe)
    have goes : ∀ {t : State} (k : Nat), t.busy = s.busy → t.ft = s.ft → t.seqK = k → k < 12 → t.Rested →
        t.drvState = s.drvState → t.At .scanAll scanAllOp := fun k hb hft htk hlt ht hd =>
      .of_idle k (hb.trans h.busy) ((congrArg Ft.state hft).trans idle) htk hlt ⟨ht, .inr (hd.trans hready)⟩
    simp only [scanAllOp]
    split
    · unfold scanManualReply
      split
      · split
        · exact .inl (goes 2 rfl rfl rfl (by decide) hrest rfl)
        · exact .inl (goes (s.seqK + 1) rfl rfl rfl (by omega) hrest rfl)
      · exact .inl (goes 11 rfl rfl rfl (by decide) hrest rfl)
    · rename_i hauto
      unfold scanAutoReply
      split
      · split
        · exact .inl (goes 2 rfl rfl rfl (by decide) ⟨hrest.1, fun _ => ⟨hauto, hready⟩⟩ rfl)
        · split
          · exact .inl (goes 10 rfl rfl rfl (by decide) ⟨hrest.1, fun _ => ⟨hauto, hready⟩⟩ rfl)
          · exact .inl (goes (s.seqK + 1) rfl rfl rfl (by omega) hrest rfl)
      · exact .inl (goes 11 rfl rfl rfl (by decide) hrest rfl)

theorem getCodesOp_sound : getCodesOp.Sound .getCodes :=
  SeqOp.sound_of_answers rfl (fun _ h => h) fun _ idle hrest => ⟨_, rfl, State.respondP_ended _ idle hrest⟩

theorem toVoltageOp_sound (code : Code) (rg : Byte) : (toVoltageOp code rg).Sound (.toVoltage code rg) :=
  SeqOp.sound_of_answers rfl (fun _ h => h) fun _ idle hrest => ⟨_, rfl, State.respondP_ended _ idle hrest⟩

theorem seqOpOf_sound {i : Instr} {op : SeqOp} (h : seqOpOf i = some op) : op.Sound i := by
  cases i with
  | reset => exact SeqOp.of_some (P := (SeqOp.Sound · _)) resetOp_sound h
  | powerOnAll => exact SeqOp.of_some (P := (SeqOp.Sound · _)) powerOnAllOp_sound h
  | setRange ch rg => exact SeqOp.of_some (P := (SeqOp.Sound · _)) (setRangeOp_sound ch rg) h
  | getRange ch => exact SeqOp.of_some (P := (SeqOp.Sound · _)) (getRangeOp_sound ch) h
  | enterScan => exact SeqOp.of_some (P := (SeqOp.Sound · _)) enterScanOp_sound h
  | readCh ch => exact SeqOp.of_some (P := (SeqOp.Sound · _)) (readChOp_sound ch) h
  | scanAll => exact SeqOp.of_some (P := (SeqOp.Sound · _)) scanAllOp_sound h
  | getCodes => exact SeqOp.of_some (P := (SeqOp.Sound · _)) getCodesOp_sound h
  | toVoltage code rg => exact SeqOp.of_some (P := (SeqOp.Sound · _)) (toVoltageOp_sound code rg) h
  | _ => exact absurd h (Option.some_ne_none op).symm

theorem seqOpOf_steps_pos {i : Instr} {op : SeqOp} (h : seqOpOf i = some op) : 0 < op.steps := by
  have hset : ∀ ch rg, 0 < (setRangeOp ch rg).steps := fun ch rg => by
    unfold setRangeOp
    split
    · split <;> exact Nat.succ_pos _
    · exact Nat.succ_pos _
  have hget : ∀ ch, 0 < (getRangeOp ch).steps := fun ch => by unfold getRangeOp; split <;> exact Nat.succ_pos _
  have hread : ∀ ch, 0 < (readChOp ch).steps := fun ch => by unfold readChOp; split <;> exact Nat.succ_pos _
  cases i with
  | setRange ch rg => exact SeqOp.of_some (P := (0 < SeqOp.steps ·)) (hset ch rg) h
  | getRange ch => exact SeqOp.of_some (P := (0 < SeqOp.steps ·)) (hget ch) h
  | readCh ch => exact SeqOp.of_some (P := (0 < SeqOp.steps ·)) (hread ch) h
  | reset | powerOnAll | enterScan | scanAll | getCodes | toVoltage => cases h; exact Nat.succ_pos _
  | _ => cases h

end Sys2Proof.Machine
end

section
/-! PROOFS. The invariant of R47: what is in progress is nothing, a bench's frame, or an operation of SEQ (`State.Mode`),
and every step keeps that and the clauses of `State.Base`. -/

namespace Sys2Proof.Machine

open Sys2Proof

/-! ## What is in progress -/

/-- Nothing is in progress, of SEQ or of a bench. -/
def State.Resting (s : State) : Prop := s.bench = false ∧ s.Ended

/-- A bench's frame is in progress (log 19). -/
def State.Benched (s : State) : Prop := s.bench = true ∧ s.busy = true ∧ s.ft.state ≠ .idle ∧ s.Rested

/-- The operation `op` of instruction `i` is in progress. -/
structure State.Doing (s : State) (i : Instr) (op : SeqOp) : Prop where
  isOp : seqOpOf i = some op
  bench : s.bench = false
  word : s.curCw = hostWordOf i
  stood : s.At i op

/-- Nothing, a bench's frame, or an operation of SEQ is in progress. -/
def State.Mode (s : State) : Prop := s.Resting ∨ s.Benched ∨ ∃ i op, s.Doing i op

theorem hostWordOf_inj {i j : Instr} (hi : (seqOpOf i).isSome = true) (hj : (seqOpOf j).isSome = true)
    (h : hostWordOf i = hostWordOf j) : i = j :=
  Except.ok.inj ((decodeHost_hostWordOf hi).symm.trans (h ▸ decodeHost_hostWordOf hj))

theorem State.currentOp_iff {s : State} {op : SeqOp} :
    s.currentOp = some op ↔ ∃ i, s.curCw = hostWordOf i ∧ seqOpOf i = some op ∧ s.seqK < op.steps := by
  constructor
  · intro h
    unfold State.currentOp at h
    split at h
    · rename_i i hd
      split at h
      · rename_i o ho
        split at h
        · rename_i hk
          cases h
          exact ⟨i, (decodeHost_ok hd).1.symm, ho, hk⟩
        · cases h
      · cases h
    · cases h
  · rintro ⟨i, hcw, hop, hk⟩
    have hd : decodeHost s.curCw = .ok i := hcw ▸ decodeHost_hostWordOf (Option.isSome_of_eq_some hop)
    simp only [State.currentOp, hd, hop, if_pos hk]

theorem State.Doing.currentOp {s : State} {i : Instr} {op : SeqOp} (h : s.Doing i op) : s.currentOp = some op :=
  State.currentOp_iff.mpr ⟨i, h.word, h.isOp, h.stood.within⟩

theorem State.Doing.isSome {s : State} {i : Instr} {op : SeqOp} (h : s.Doing i op) : (seqOpOf i).isSome = true :=
  Option.isSome_of_eq_some h.isOp

theorem State.Doing.atFrameStep {s : State} {i : Instr} {op : SeqOp} (h : s.Doing i op) :
    s.atFrameStep = frameStep i s.seqK := by
  have hd : decodeHost s.curCw = .ok i := h.word ▸ decodeHost_hostWordOf h.isSome
  simp only [State.atFrameStep, hd]

/-! ## The clauses of the invariant for an operation in progress -/

theorem State.Stands.resetting {s : State} {i : Instr} (h : s.Stands i) (hdrv : s.drvState = .resetting) :
    i = .reset := by
  cases i with
  | reset => rfl
  | enterScan => exact absurd hdrv h.1
  | readCh ch => exact absurd hdrv h.1.1
  | scanAll => exact absurd hdrv h.1.1
  | _ => exact absurd hdrv h.1

theorem State.Stands.armed {s : State} {i : Instr} (h : s.Stands i) (harmed : s.autoArmed = true) :
    s.straps.strategy = .autoSeq ∧
      (s.drvState = .ready ∨ (i = .enterScan ∧ s.seqK = 3 ∧ s.drvState = .configuring)) := by
  have hrest : s.Rested → s.straps.strategy = .autoSeq ∧
      (s.drvState = .ready ∨ (i = .enterScan ∧ s.seqK = 3 ∧ s.drvState = .configuring)) :=
    fun hr => (hr.2 harmed).imp_right .inl
  cases i with
  | reset =>
    rcases h with ⟨_, hunarmed⟩ | ⟨_, hr⟩
    · cases hunarmed.symm.trans harmed
    · exact hrest hr
  | enterScan => exact (h.2.2 harmed).imp_right fun hd => hd.imp_right fun h3 => ⟨rfl, h3⟩
  | readCh ch => exact hrest h.1
  | scanAll => exact hrest h.1
  | _ => exact hrest h

/-- The operation code of an operation of SEQ (R96). -/
def opCodeOf : Instr → BitVec 4
  | .reset => 1
  | .powerOnAll => 2
  | .setRange _ _ => 3
  | .getRange _ => 4
  | .enterScan => 5
  | .readCh _ => 6
  | .scanAll => 7
  | .getCodes => 8
  | .toVoltage _ _ => 9
  | _ => 0

theorem hostWordOf_op {i : Instr} (h : (seqOpOf i).isSome = true) : (hostWordOf i).extractLsb' 28 4 = opCodeOf i := by
  cases i with
  | reset | powerOnAll | setRange | getRange | enterScan | readCh | scanAll | getCodes | toVoltage =>
    exact hostWord_op _ _
  | _ => cases h

theorem opCodeOf_reads (i : Instr) : opCodeOf i = 6 ∨ opCodeOf i = 7 ↔ (∃ ch, i = .readCh ch) ∨ i = .scanAll := by
  cases i with
  | readCh ch => exact ⟨fun _ => .inl ⟨ch, rfl⟩, fun _ => .inl rfl⟩
  | scanAll => exact ⟨fun _ => .inr rfl, fun _ => .inr rfl⟩
  | _ => exact ⟨fun h => (by rcases h with h | h <;> cases h), fun h => (by rcases h with ⟨_, h⟩ | h <;> cases h)⟩

theorem State.Stands.reads {s : State} {i : Instr} (h : s.Stands i) (hi : (∃ ch, i = .readCh ch) ∨ i = .scanAll) :
    s.seqK = 0 ∨ s.drvState = .ready := by
  rcases hi with ⟨ch, rfl⟩ | rfl <;> exact h.2

/-! ## The invariant, by what is in progress -/

section
variable {s : State}

theorem State.Inv.base (h : s.Inv) : s.Base :=
  have ⟨_, hcs, _, _, hranges, hlock, _, _, _, ⟨hidle, hactive, hmosi⟩, hpr⟩ := h
  ⟨⟨hcs, hidle, hactive, hmosi⟩, hranges, hlock, hpr⟩

theorem State.Inv.resting (h : s.Inv) (hb : s.busy = false) : s.Resting := by
  obtain ⟨harmed, _, howned, hbench, _, _, hreset, _, _, _, _⟩ := h
  have hnot : ∀ {p : Prop}, s.busy = true ∧ p → False := fun hp => nomatch hb.symm.trans hp.1
  refine ⟨?_, hb, ?_, fun hd => hnot (hreset hd), fun ha => ?_⟩
  · by_contra hne
    exact hnot (hbench (by simpa using hne))
  · by_contra hne
    cases hb.symm.trans (howned hne)
  · exact (harmed ha).imp_right fun hd => hd.resolve_right hnot

theorem State.Inv.benched (h : s.Inv) (hb : s.bench = true) : s.Benched := by
  obtain ⟨harmed, _, _, hbench, _, _, hreset, _, _, _, _⟩ := h
  obtain ⟨hbusy, hft⟩ := hbench hb
  refine ⟨hb, hbusy, hft, fun hd => ?_, fun ha => ?_⟩
  · cases hb.symm.trans (hreset hd).2.1
  · refine (harmed ha).imp_right fun hd => hd.resolve_right fun ⟨_, hnb, _⟩ => ?_
    cases hb.symm.trans hnb

theorem State.Inv.doing (h : s.Inv) (hb : s.busy = true) (hnb : s.bench = false) : ∃ i op, s.Doing i op := by
  obtain ⟨harmed, _, _, _, _, _, hreset, hpos, hwait, _, _⟩ := h
  obtain ⟨hsome, hposReset, hposRead, hposEnter⟩ := hpos hb hnb
  obtain ⟨op, hop⟩ := Option.isSome_iff_exists.mp hsome
  obtain ⟨i, hcw, hi, hk⟩ := State.currentOp_iff.mp hop
  have hsome : (seqOpOf i).isSome = true := Option.isSome_of_eq_some hi
  have hdrv : i ≠ .reset → s.drvState ≠ .resetting := fun hne hd =>
    hne (hostWordOf_inj hsome rfl (hcw.symm.trans (hreset hd).2.2))
  have hrested : i ≠ .reset → i ≠ .enterScan → s.Rested := fun hne hne' =>
    ⟨hdrv hne, fun ha => (harmed ha).imp_right fun hd => hd.resolve_right fun ⟨_, _, he, _⟩ =>
      hne' (hostWordOf_inj hsome rfl (hcw.symm.trans he))⟩
  have hread : (∃ ch, i = .readCh ch) ∨ i = .scanAll → s.seqK = 0 ∨ s.drvState = .ready := fun hi => by
    refine hposRead ?_
    rw [State.seqOpCode, hcw, hostWordOf_op hsome]
    exact (opCodeOf_reads i).mpr hi
  have hstands : s.Stands i := by
    cases i with
    | reset =>
      have hready : s.autoArmed = true → s.straps.strategy = .autoSeq ∧ s.drvState = .ready := fun ha =>
        (harmed ha).imp_right fun hd => hd.resolve_right fun ⟨_, _, he, _⟩ =>
          absurd (hostWordOf_inj hsome rfl (hcw.symm.trans he)) nofun
      by_cases hd : s.drvState = .resetting
      · refine .inl ⟨hd, Bool.eq_false_iff.mpr fun ha => ?_⟩
        cases hd.symm.trans (hready ha).2
      · exact .inr ⟨(hposReset hcw).resolve_right hd, hd, hready⟩
    | enterScan =>
      exact ⟨hdrv nofun, hposEnter hcw, fun ha =>
        (harmed ha).imp_right fun hd => hd.imp_right fun ⟨_, _, _, hk3⟩ => hk3⟩
    | readCh ch => exact ⟨hrested nofun nofun, hread (.inl ⟨ch, rfl⟩)⟩
    | scanAll => exact ⟨hrested nofun nofun, hread (.inr rfl)⟩
    | _ => exact hrested nofun nofun
  have hframe : s.atFrameStep = frameStep i s.seqK := by
    have hd : decodeHost s.curCw = .ok i := hcw ▸ decodeHost_hostWordOf hsome
    simp only [State.atFrameStep, hd]
  exact ⟨i, op, hi, hnb, hcw, hb, hk, hstands, fun hne => hframe ▸ hwait hb hnb hne⟩

/-- SEQ, in progress, is at a step of its operation: the fault of log 24 is not met. -/
theorem State.Inv.currentOp_ne_none (h : s.Inv) (hb : s.busy = true) (hnb : s.bench = false) :
    s.currentOp ≠ none := by
  obtain ⟨i, op, hdoing⟩ := h.doing hb hnb
  simp [hdoing.currentOp]

theorem State.Inv.doing_currentOp (h : s.Inv) (hb : s.busy = true) (hnb : s.bench = false) {op : SeqOp}
    (hop : s.currentOp = some op) : ∃ i, s.Doing i op := by
  obtain ⟨i, op', hdoing⟩ := h.doing hb hnb
  cases hop.symm.trans hdoing.currentOp
  exact ⟨i, hdoing⟩

theorem State.Inv.busy_of_active (h : s.Inv) (hft : s.ft.state ≠ .idle) : s.busy = true :=
  have ⟨_, _, howned, _⟩ := h
  howned hft

theorem State.Inv.mode (h : s.Inv) : s.Mode := by
  cases hb : s.busy with
  | false => exact .inl (h.resting hb)
  | true =>
    cases hbench : s.bench with
    | false => exact .inr (.inr (h.doing hb hbench))
    | true => exact .inr (.inl (h.benched hbench))

namespace State.Base

variable (h : s.Base)
include h

theorem inv_of_resting (hm : s.Resting) : s.Inv := by
  obtain ⟨hbench, hbusy, hidle, hdrv, harmed⟩ := hm
  have hnot : s.busy ≠ true := by simp [hbusy]
  exact ⟨fun ha => (harmed ha).imp_right .inl, h.ft.cs, fun hne => absurd hidle hne,
    fun hb => (nomatch hbench.symm.trans hb), h.ranges, h.lock, fun hd => absurd hd hdrv, fun hb => absurd hb hnot, fun hb => absurd hb hnot,
    ⟨h.ft.idle, h.ft.active, h.ft.mosi⟩, h.pr⟩

theorem inv_of_benched (hm : s.Benched) : s.Inv := by
  obtain ⟨hbench, hbusy, hft, hdrv, harmed⟩ := hm
  have hnot : s.bench ≠ false := by simp [hbench]
  exact ⟨fun ha => (harmed ha).imp_right .inl, h.ft.cs, fun _ => hbusy, fun _ => ⟨hbusy, hft⟩,
    h.ranges, h.lock, fun hd => absurd hd hdrv, fun _ hb => absurd hb hnot, fun _ hb => absurd hb hnot,
    ⟨h.ft.idle, h.ft.active, h.ft.mosi⟩, h.pr⟩

theorem inv_of_doing {i : Instr} {op : SeqOp} (hm : s.Doing i op) : s.Inv := by
  have hop := hm.currentOp
  have hstep := hm.atFrameStep
  have hsome := hm.isSome
  obtain ⟨_, hbench, hcw, hbusy, _, hstands, hframe⟩ := hm
  have hnot : s.bench ≠ true := by simp [hbench]
  have hword : ∀ {j : Instr}, (seqOpOf j).isSome = true → s.curCw = hostWordOf j → i = j := fun hj hc =>
    hostWordOf_inj hsome hj (hcw.symm.trans hc)
  have harmed : s.ArmedOk := fun ha =>
    (hstands.armed ha).imp_right fun hd => hd.imp_right fun ⟨hi, hk⟩ => ⟨hbusy, hbench, hi ▸ hcw, hk⟩
  have hpos : s.PositionOk := by
    refine fun _ _ => ⟨by rw [hop]; rfl, fun hc => ?_, fun hc => ?_, fun hc => ?_⟩
    · obtain rfl := hword rfl hc
      exact hstands.symm.imp (·.1) (·.1)
    · rw [State.seqOpCode, hcw, hostWordOf_op hsome] at hc
      exact hstands.reads ((opCodeOf_reads i).mp hc)
    · obtain rfl := hword rfl hc
      exact hstands.2.1
  exact ⟨harmed, h.ft.cs, fun _ => hbusy, fun hb => absurd hb hnot, h.ranges, h.lock,
    fun hd => ⟨hbusy, hbench, hstands.resetting hd ▸ hcw⟩, hpos, fun _ _ hne => hstep.trans (hframe hne),
    ⟨h.ft.idle, h.ft.active, h.ft.mosi⟩, h.pr⟩

theorem inv_of_mode (hm : s.Mode) : s.Inv := by
  rcases hm with hm | hm | ⟨i, op, hm⟩
  · exact h.inv_of_resting hm
  · exact h.inv_of_benched hm
  · exact h.inv_of_doing hm

end State.Base

end

/-! ## Hardware reset -/

theorem State.hwReset_inv {s : State} (k : Straps) (h : Memory.wf s.cfg s.dev.pr = true) : (s.hwReset k).Inv :=
  (State.hwReset_base k h).inv_of_resting ⟨rfl, rfl, rfl, nofun, nofun⟩

/-- Settles O9: the reset state is one after a hardware reset, with the empty PR. -/
theorem resetMeetsTheInvariant : Obligations.ResetMeetsTheInvariant :=
  ⟨fun k c => State.hwReset_inv (s := { State.reset with cfg := c }) k rfl, fun _ k h => State.hwReset_inv k h⟩

end Sys2Proof.Machine
end

section
/-! PROOFS. Every step keeps the invariant and answers a next state (R47, R300, R315): the run of an operation from any
of its steps, the steps of FT, the bench's requests, the words of both ports. -/

namespace Sys2Proof.Machine

open Sys2Proof

/-! ## Beside port C and hardware reset -/

/-- A property that port C and the slots do not matter to, and that leaves the lock free. -/
structure PortCBlind (P : State → Prop) : Prop where
  view : ∀ (s : State) (l : List Slot) (r : Option Response) (h : List Event),
    P s → P { s with slots := l, cResp := r, hist := h }
  lock : ∀ s, P s → s.bufLock = .free

theorem PortCBlind.serveAll {P : State → Prop} (hP : PortCBlind P) {s : State} (h : P s) (cws : List HostWord) :
    P (s.serveAll cws) := by
  obtain ⟨r, evs, lock, _, hlock, ht⟩ := State.serveAll_frame cws s
  have hfree : lock = s.bufLock := hlock.elim id fun hl => hl.trans (hP.lock s h).symm
  rw [ht, hfree]
  exact hP.view s s.slots r _ h

/-- A tick of `f` leaves what `f` and a hardware reset leave. -/
theorem State.tick_leaves {P Q : State → Prop} (hP : PortCBlind P) (hQ : PortCBlind Q) {f : State → State}
    (hf : ∀ s, P s → Q (f s)) (hrst : ∀ s k, P s → Q (s.hwReset k)) {s : State} (h : P s) : Q (s.tick f) := by
  have hpop : ∀ l, P { s with slots := l } := fun l => hP.view s l s.cResp s.hist h
  rcases s.tick_cases f with ⟨_, ht⟩ | ⟨l, _, ht⟩ | ⟨cws, l, _, ht⟩ | ⟨cws, l, _, ht⟩ | ⟨k, l, _, ht⟩ <;> rw [ht]
  · exact hf s h
  · exact hf _ (hpop l)
  · exact hf _ (hP.serveAll (hpop l) cws)
  · exact hQ.serveAll (hf _ (hpop l)) cws
  · exact hrst _ k (hpop l)

theorem State.Inv.blind : PortCBlind State.Inv := ⟨fun _ _ _ _ h => h, fun _ h => h.base.lock⟩

/-! ## The run of an operation -/

/-- A state from which the operation `op` of `i` goes on, or in which it has ended. -/
def State.Runs (i : Instr) (op : SeqOp) (s : State) : Prop := s.Base ∧ (s.Resting ∨ s.Doing i op)

theorem State.Runs.inv {i : Instr} {op : SeqOp} {s : State} (h : s.Runs i op) : s.Inv :=
  h.2.elim h.1.inv_of_resting h.1.inv_of_doing

theorem State.Doing.view {s : State} {i : Instr} {op : SeqOp} (h : s.Doing i op) (l : List Slot)
    (r : Option Response) (hist : List Event) :
    ({ s with slots := l, cResp := r, hist := hist } : State).Doing i op :=
  have hat := h.stood
  ⟨h.isOp, h.bench, h.word, hat.busy, hat.within, hat.stands, hat.frame⟩

theorem State.Resting.view {s : State} (h : s.Resting) (l : List Slot) (r : Option Response) (hist : List Event) :
    ({ s with slots := l, cResp := r, hist := hist } : State).Resting :=
  ⟨h.1, h.2.busy, h.2.idle, h.2.rested⟩

theorem State.Runs.blind (i : Instr) (op : SeqOp) : PortCBlind (State.Runs i op) :=
  ⟨fun _ l r hist h => ⟨h.1.congr, h.2.imp (·.view l r hist) (·.view l r hist)⟩, fun _ h => h.1.lock⟩

/-- The operation is about to make a micro-step. -/
def State.Ready (i : Instr) (op : SeqOp) (s : State) : Prop := s.Base ∧ s.ft.state = .idle ∧ s.Doing i op

theorem State.Ready.blind (i : Instr) (op : SeqOp) : PortCBlind (State.Ready i op) :=
  ⟨fun _ l r hist ⟨hb, hidle, hd⟩ => ⟨hb.congr, hidle, hd.view l r hist⟩, fun _ h => h.1.lock⟩

theorem State.hwReset_runs {s : State} (i : Instr) (op : SeqOp) (k : Straps) (h : s.Base) : (s.hwReset k).Runs i op :=
  ⟨State.hwReset_base k h.pr, .inl ⟨rfl, rfl, rfl, nofun, nofun⟩⟩

theorem State.request_word (s : State) (kind : ReqKind) (w : Width) (tx : TxWord) :
    (s.request kind w tx).1.bench = s.bench ∧ (s.request kind w tx).1.curCw = s.curCw := by
  rcases s.request_cases kind w tx with ⟨b, _, h⟩ | ⟨a, b, rx, _, _, h⟩ | ⟨a, b, _, _, h⟩ <;> rw [h] <;>
    exact ⟨rfl, rfl⟩

/-- SEQ's writes keep the word in progress, and whose it is. -/
theorem State.SeqWrites.word {s t : State} (h : s.SeqWrites t) : t.bench = s.bench ∧ t.curCw = s.curCw := by
  induction h with
  | refl => exact ⟨rfl, rfl⟩
  | tail _ hw ih =>
    cases hw with
    | request kind w tx =>
      obtain ⟨hbench, hcw⟩ := State.request_word _ kind w tx
      exact ⟨hbench.trans ih.1, hcw.trans ih.2⟩
    | _ => exact ih

/-- Writes of SEQ that leave it at a step of its operation, or ended, leave a state that the run goes on from. -/
theorem State.Doing.runs {s t : State} {i : Instr} {op : SeqOp} (h : s.Doing i op) (hb : s.Base) (hw : s.SeqWrites t)
    (ht : t.At i op ∨ t.Ended) : t.Runs i op := by
  obtain ⟨hop, hbench, hcw, _⟩ := h
  obtain ⟨hbench', hcw'⟩ := hw.word
  exact ⟨hb.seqWrites hw,
    ht.symm.imp (⟨hbench'.trans hbench, ·⟩) fun hat => ⟨hop, hbench'.trans hbench, hcw'.trans hcw, hat⟩⟩

theorem SeqOp.Sound.micro {i : Instr} {op : SeqOp} (h : op.Sound i) {s : State} (hs : s.At i op)
    (idle : s.ft.state = .idle) : (op.micro s).At i op ∨ (op.micro s).Ended := by
  unfold SeqOp.micro
  rcases h.step s hs idle with ⟨t, ht, hgo⟩ | ⟨u, kind, w, tx, ht, hk, hu, hidle, hframe⟩ <;> rw [ht]
  · exact hgo
  · rw [← hk]
    rcases u.request_cases kind w tx with ⟨b, _, hr⟩ | ⟨a, b, rx, _, _, hr⟩ | ⟨a, b, _, _, hr⟩ <;> rw [hr]
    · exact .inl ⟨hu.busy, hu.within, hu.stands, fun _ => hframe⟩
    · exact h.reply { u with ft := _, busIn := b, dev := _, hist := _ } _
        ⟨hu.busy, hu.within, hu.stands, fun _ => hframe⟩ rfl hframe
    · have hft : (a.ftAfterFault u.ft kind w tx).state = .idle := by
        cases a with
        | fault => rfl
        | _ => exact hidle
      exact h.reply { u with ft := _, busIn := b, dev := _, hist := _ } _
        ⟨hu.busy, hu.within, hu.stands, fun _ => hframe⟩ hft hframe

/-- Any number of micro-steps beside port C and hardware reset. -/
theorem State.Runs.run {i : Instr} {op : SeqOp} {s : State} (h : s.Runs i op) (n : Nat) : (op.run n s).Runs i op := by
  refine op.run_keeps (P := State.Runs i op) (fun t ht hbusy hidle => ?_) n s h
  have hdoing : t.Doing i op := ht.2.resolve_left fun hrest => nomatch hrest.2.busy.symm.trans hbusy
  refine State.tick_leaves (State.Ready.blind i op) (State.Runs.blind i op) (fun u hu => ?_) (fun u k hu => ?_)
    ⟨ht.1, hidle, hdoing⟩
  · obtain ⟨hbase, hidle, hdoing⟩ := hu
    exact hdoing.runs hbase ((seqOpOf_writes hdoing.isOp).micro u)
      ((seqOpOf_sound hdoing.isOp).micro hdoing.stood hidle)
  · exact State.hwReset_runs i op k hu.1

theorem State.resume_inv {s : State} (h : s.Inv) : ∃ t, s.resume = .next t ∧ t.Inv := by
  rcases s.resume_cases with ⟨hb, hnb, op, hop, hr⟩ | ⟨hb, hnb, hop, _⟩ | ⟨_, hr⟩
  · obtain ⟨i, hdoing⟩ := h.doing_currentOp hb hnb hop
    exact ⟨_, hr, (State.Runs.run ⟨h.base, .inr hdoing⟩ seqFuel).inv⟩
  · exact absurd hop (h.currentOp_ne_none hb hnb)
  · exact ⟨s, hr, h⟩

/-! ## FT's steps -/

/-- FT works on: the frame stays in progress, and whose it is. -/
theorem State.Mode.active {s t : State} (h : s.Mode) (hs : s.ft.state ≠ .idle) (ht : t.ft.state ≠ .idle)
    (same : t = { s with ft := t.ft, dev := t.dev, lineIn := t.lineIn }) : t.Mode := by
  rw [same]
  rcases h with ⟨_, hended⟩ | ⟨hbench, hbusy, _, hrest⟩ | ⟨i, op, hop, hbench, hcw, hat⟩
  · exact absurd hended.idle hs
  · exact .inr (.inl ⟨hbench, hbusy, ht, hrest⟩)
  · exact .inr (.inr ⟨i, op, hop, hbench, hcw, hat.busy, hat.within, hat.stands, fun _ => hat.frame hs⟩)

theorem State.shiftStep_inv {s : State} (h : s.Inv) (hst : s.ft.state = .shift) : s.shiftStep.Inv := by
  refine (h.base.shiftStep hst).inv_of_mode (h.mode.active (by simp [hst]) ?_ ?_)
  all_goals
    rcases s.shiftStep_cases with hs | ⟨miso, err, acts, l, hlt, hs⟩ | ⟨err, acts, l, hs⟩ | ⟨l, hs⟩ <;> rw [hs]
  · rw [s.endShift_eq]; nofun
  · exact fun hi => nomatch hst.symm.trans hi
  · exact fun hi => nomatch hst.symm.trans hi
  · exact fun hi => nomatch hst.symm.trans hi
  · rw [s.endShift_eq]

theorem State.settleTick_inv {s : State} (h : s.Inv) (hst : s.ft.state = .settle) : s.settleTick.Inv :=
  (h.base.settleTick hst).inv_of_mode (h.mode.active (by simp [hst]) (fun hi => nomatch hst.symm.trans hi) rfl)

/-- The end of a frame: its bench's, or the rest of the micro-step that asked for it. -/
theorem State.finishFrame_inv {s : State} (h : s.Inv) (hst : s.ft.state = .settle) : s.finishFrame.Inv := by
  have hbase := h.base.endSettle hst
  have hft : s.ft.state ≠ .idle := by simp [hst]
  rcases s.finishFrame_cases with ⟨hb, hf⟩ | ⟨hnb, op, hop, hf⟩ | ⟨hnb, hop, _⟩
  · obtain ⟨_, _, _, hrest⟩ := h.benched hb
    rw [hf]
    exact State.Base.inv_of_resting hbase.congr ⟨rfl, rfl, rfl, hrest⟩
  · obtain ⟨i, hdoing⟩ := h.doing_currentOp (h.busy_of_active hft) hnb hop
    obtain ⟨hi, hbench, hcw, hat⟩ := hdoing
    have hframe := hat.frame hft
    have hat' : s.endSettle.1.At i op := ⟨hat.busy, hat.within, hat.stands, fun _ => hframe⟩
    have hdoing' : s.endSettle.1.Doing i op := ⟨hi, hbench, hcw, hat'⟩
    rw [hf]
    exact (hdoing'.runs hbase ((seqOpOf_writes hi).reply _ _ _) ((seqOpOf_sound hi).reply _ _ hat' rfl hframe)).inv
  · exact absurd hop (h.currentOp_ne_none (h.busy_of_active hft) hnb)

/-- A step of FT that keeps the invariant keeps it beside port C and hardware reset. -/
theorem State.tick_inv {s : State} {f : State → State} (st : FtState)
    (hf : ∀ s : State, s.Inv → s.ft.state = st → (f s).Inv) (h : s.Inv) (hst : s.ft.state = st) : (s.tick f).Inv :=
  State.tick_leaves (P := fun u => u.Inv ∧ u.ft.state = st) ⟨fun _ _ _ _ h => h, fun _ h => h.1.base.lock⟩
    State.Inv.blind (fun u hu => hf u hu.1 hu.2) (fun _ k hu => State.hwReset_inv k hu.1.base.pr) ⟨h, hst⟩

theorem State.proceed_inv {s : State} (h : s.Inv) : ∃ t, s.proceed = .next t ∧ t.Inv := by
  unfold State.proceed
  split
  · rename_i hst
    exact ⟨_, rfl, State.tick_inv .shift (fun _ => State.shiftStep_inv) h hst⟩
  · rename_i hst
    rcases s.settleStep_cases with ⟨_, hs⟩ | ⟨_, _, hs⟩ | ⟨_, hnb, hop, _⟩
    · exact ⟨_, hs, State.tick_inv .settle (fun _ => State.settleTick_inv) h hst⟩
    · rw [hs]
      exact State.resume_inv (State.tick_inv .settle (fun _ => State.finishFrame_inv) h hst)
    · exact absurd hop (h.currentOp_ne_none (h.busy_of_active (by simp [hst])) hnb)
  · exact State.resume_inv h

/-! ## Instructions and words -/

section
variable {s : State} (hb : s.Base) (hr : s.Resting)
include hb hr

theorem State.benchRequest_inv (kind : ReqKind) (w : Width) (tx : TxWord) : (s.benchRequest kind w tx).Inv := by
  have hbase := hb.request kind w tx
  obtain ⟨_, hbusy, hidle, hrest⟩ := hr
  unfold State.benchRequest
  rcases s.request_cases kind w tx with ⟨b, _, h⟩ | ⟨a, b, rx, _, _, h⟩ | ⟨a, b, _, _, h⟩ <;> rw [h] at hbase ⊢
  · exact State.Base.inv_of_benched hbase.congr ⟨rfl, rfl, nofun, hrest⟩
  · exact State.Base.inv_of_resting hbase.congr ⟨rfl, hbusy, rfl, hrest⟩
  · refine State.Base.inv_of_resting hbase.congr ⟨rfl, hbusy, ?_, hrest⟩
    cases a with
    | fault => rfl
    | _ => exact hidle

theorem exec_inv (i : Instr) : ∃ t, exec i s = .next t ∧ t.Inv := by
  have hinv := hb.inv_of_resting hr
  cases hop : seqOpOf i with
  | none =>
    refine ⟨_, exec_bench s hop, ?_⟩
    cases benchFrame s.cfg i with
    | none => exact hinv
    | some f => exact State.benchRequest_inv hb hr _ _ _
  | some op =>
    cases hp : s.port with
    | P =>
      obtain ⟨hbench, _, hidle, hrest⟩ := hr
      have hdoing : (s.acceptP (hostWordOf i)).Doing i op :=
        ⟨hop, hbench, rfl, .of_idle 0 rfl hidle rfl (seqOpOf_steps_pos hop)
          (State.Rested.stands (s := s.acceptP (hostWordOf i)) hrest rfl i)⟩
      exact ⟨_, exec_portP hop hp, (State.Runs.run ⟨hb.congr, .inr hdoing⟩ seqFuel).inv⟩
    | C => exact ⟨_, exec_portC (Option.isSome_of_eq_some hop) hp, State.Inv.blind.serveAll hinv [_]⟩

theorem State.runWord_inv (p : Port) (cw : HostWord) : ∃ t, s.runWord p cw = .next t ∧ t.Inv := by
  unfold State.runWord
  split
  · exact exec_inv (s := { s with port := p }) hb.congr ⟨hr.1, hr.2.busy, hr.2.idle, hr.2.rested⟩ _
  · refine ⟨_, rfl, ?_⟩
    cases p with
    | P => exact State.Base.inv_of_resting hb.congr ⟨hr.1, rfl, hr.2.idle, hr.2.rested⟩
    | C => exact hb.inv_of_resting hr

theorem State.runRequest_inv (rq : RequestWord) : ∃ t, s.runRequest rq = .next t ∧ t.Inv := by
  unfold State.runRequest
  split
  · exact exec_inv hb hr _
  · exact ⟨_, rfl, hb.inv_of_resting hr⟩

theorem State.runFrame_inv (w : Width) (tx : TxWord) : ∃ t, s.runFrame w tx = .next t ∧ t.Inv := by
  unfold State.runFrame
  split
  · exact exec_inv hb hr _
  · exact ⟨_, rfl, State.benchRequest_inv hb hr _ _ _⟩

end

/-! ## The step -/

/-- The owner's moves and TMR's readings touch nothing the invariant speaks of. -/
theorem State.stepFree_inv {s : State} (h : s.Inv) (hbusy : s.busy = false) : ∃ t, s.stepFree = .next t ∧ t.Inv := by
  have hbase : ∀ l, ({ s with inbox := l } : State).Base := fun _ => h.base.congr
  have hrest : ∀ l, ({ s with inbox := l } : State).Resting := fun _ =>
    have hr := h.resting hbusy
    ⟨hr.1, hr.2.busy, hr.2.idle, hr.2.rested⟩
  unfold State.stepFree
  split
  · exact ⟨_, rfl, h⟩
  · exact State.runWord_inv (hbase _) (hrest _) .P _
  · exact State.runWord_inv (hbase _) (hrest _) .C _
  · exact State.runRequest_inv (hbase _) (hrest _) _
  · exact State.runFrame_inv (hbase _) (hrest _) _ _
  · exact ⟨_, rfl, State.hwReset_inv _ h.base.pr⟩
  · exact ⟨_, rfl, h⟩
  · refine ⟨_, rfl, ?_⟩
    unfold schedStart
    split <;> exact h
  · refine ⟨_, rfl, ?_⟩
    unfold iterateMove
    split <;> exact h
  · refine ⟨_, rfl, ?_⟩
    unfold schedReport
    split <;> exact h
  · refine ⟨_, rfl, ?_⟩
    unfold schedFinish
    split
    · dsimp only
      split <;> exact h
    · exact h
  · exact ⟨_, rfl, h⟩
  · refine ⟨_, rfl, ?_⟩
    unfold scriptMove
    split
    · exact h
    · split <;> exact h

/-- From a state of the invariant, with legal parameters, a step answers a next state of the invariant. -/
theorem step_inv {s : State} (h : s.Inv) (hwf : s.cfg.wf = true) : ∃ t, step s = .next t ∧ t.Inv := by
  cases hb : s.busy with
  | false =>
    obtain ⟨t, ht, hinv⟩ := State.stepFree_inv (s := s.clearOutputs) h hb
    exact ⟨t, (step_legal hwf).trans ((if_neg (by simp [hb])).trans ht), hinv⟩
  | true =>
    rcases step_busy_cases hwf hb with ⟨cw, l, p, _, ht⟩ | ⟨k, l, _, ht⟩ | ht
    · exact ⟨_, ht, State.Inv.blind.serveAll (s := { s.clearOutputs with inbox := l, port := p }) h [cw]⟩
    · exact ⟨_, ht, State.hwReset_inv k h.base.pr⟩
    · obtain ⟨t, hp, hinv⟩ := State.proceed_inv (s := s.clearOutputs) h
      exact ⟨t, ht.trans hp, hinv⟩

/-- Settles O10: a step that answers a next state has legal parameters, and then keeps the invariant. -/
theorem stepKeepsTheInvariant : Obligations.StepKeepsTheInvariant := by
  intro s t h hstep
  obtain ⟨u, hu, hinv⟩ := step_inv h (wf_of_step_next hstep)
  cases hstep.symm.trans hu
  exact hinv

/-- Settles O11: the sequencer of a state of the invariant is at a step of its operation. -/
theorem invariantStepsAnswerNext : Obligations.InvariantStepsAnswerNext := fun _ h hwf =>
  (step_inv h hwf).imp fun _ ht => ht.1

end Sys2Proof.Machine
end

section
/-! PROOFS. A snapshot is never torn (R78, R80). A step of the machine writes the buffer at most once
(`SeqOp.WritesOnce`): RESET in its first micro-step, READ_CH and SCAN_ALL in their last, and no other operation. So a
snapshot falls before that write or after it, and shows the record that the step began with or the one it ends with. -/

namespace Sys2Proof.Machine

open Sys2Proof

/-! ## The record, and what a snapshot shows of it -/

/-- What a snapshot reads: CODE, VALID, and the count of writes that the free values of missing lanes go by (log 6). -/
def State.record (s : State) : Vector Code 8 × BitVec 8 × Nat := (s.code, s.valid, s.epoch)

theorem State.lanes_valid_of_record {s t : State} (h : t.record = s.record) : t.lanes = s.lanes ∧ t.valid = s.valid := by
  simp only [State.record, Prod.mk.injEq] at h
  obtain ⟨hcode, hvalid, hepoch⟩ := h
  simp only [State.lanes, hcode, hvalid, hepoch, and_self]

/-- The event, if it is a snapshot, shows the record of `s` whole. -/
def State.Shows (s : State) : Event → Prop
  | .snapshot _ codes v => codes = s.lanes ∧ v = s.valid
  | _ => True

theorem State.Shows.of_record {s t : State} {e : Event} (h : s.Shows e) (hrec : t.record = s.record) : t.Shows e := by
  obtain ⟨hlanes, hvalid⟩ := State.lanes_valid_of_record hrec
  cases e with
  | snapshot p codes v => exact ⟨h.1.trans hlanes.symm, h.2.trans hvalid.symm⟩
  | _ => trivial

/-- From `s` to `t` events are added, whose snapshots show the record of `s` or that of `t`. -/
def State.Untorn (s t : State) : Prop := ∃ evs, t.hist = s.hist ++ evs ∧ ∀ e ∈ evs, s.Shows e ∨ t.Shows e

theorem State.Untorn.same {s t : State} (hist : t.hist = s.hist := by rfl) : s.Untorn t :=
  ⟨[], hist.trans (List.append_nil _).symm, nofun⟩

/-- Snapshots stay whole over two stretches of which one keeps the record. -/
theorem State.Untorn.trans {s t u : State} (h : s.Untorn t) (h' : t.Untorn u)
    (hrec : t.record = s.record ∨ u.record = t.record) : s.Untorn u := by
  obtain ⟨evs, hist, hevs⟩ := h
  obtain ⟨evs', hist', hevs'⟩ := h'
  have middle : ∀ {e}, t.Shows e → s.Shows e ∨ u.Shows e := fun ht =>
    hrec.imp (fun hs => ht.of_record hs.symm) ht.of_record
  refine ⟨evs ++ evs', by rw [hist', hist, List.append_assoc], fun e he => ?_⟩
  rcases List.mem_append.mp he with he | he
  · exact (hevs e he).elim .inl middle
  · exact (hevs' e he).elim middle .inr

/-- `t` has the record of `s`, and every snapshot on the way shows it. -/
structure State.KeepsRecord (s t : State) : Prop where
  record : t.record = s.record
  untorn : s.Untorn t

namespace State.KeepsRecord

theorem same {s t : State} (record : t.record = s.record := by rfl) (hist : t.hist = s.hist := by rfl) :
    s.KeepsRecord t := ⟨record, .same hist⟩

theorem event {s t : State} (e : Event) (shows : s.Shows e) (record : t.record = s.record := by rfl)
    (hist : t.hist = s.hist ++ [e] := by rfl) : s.KeepsRecord t :=
  ⟨record, [e], hist, fun _ he => .inl (List.mem_singleton.mp he ▸ shows)⟩

theorem refl (s : State) : s.KeepsRecord s := same

theorem then_untorn {s t u : State} (h : s.KeepsRecord t) (h' : t.Untorn u) : s.Untorn u :=
  h.untorn.trans h' (.inl h.record)

theorem trans {s t u : State} (h : s.KeepsRecord t) (h' : t.KeepsRecord u) : s.KeepsRecord u :=
  ⟨h'.record.trans h.record, h.then_untorn h'.untorn⟩

theorem ite {s a b : State} {p : Prop} [Decidable p] (ha : s.KeepsRecord a) (hb : s.KeepsRecord b) :
    s.KeepsRecord (if p then a else b) := by
  split
  · exact ha
  · exact hb

end State.KeepsRecord

theorem State.Untorn.then_keeps {s t u : State} (h : s.Untorn t) (h' : t.KeepsRecord u) : s.Untorn u :=
  h.trans h'.untorn (.inr h'.record)

/-! ## The shared operations -/

section
variable (s : State)

theorem State.goto_keepsRecord (k : Nat) : s.KeepsRecord (s.goto k) := .same

theorem State.acceptP_keepsRecord (cw : HostWord) : s.KeepsRecord (s.acceptP cw) := .event (.op .P cw) trivial

theorem State.respondP_keepsRecord (r : Response) : s.KeepsRecord (s.respondP r) := .event (.resp .P r) trivial

theorem State.raise_keepsRecord (st : Status) : s.KeepsRecord (s.raise st) := s.respondP_keepsRecord _

theorem State.raiseConfigFault_keepsRecord : s.KeepsRecord s.raiseConfigFault :=
  .event (.resp .P (Response.error .busFault)) trivial

theorem State.refuseC_keepsRecord (cw : HostWord) : s.KeepsRecord (s.refuseC cw) :=
  State.KeepsRecord.trans (t := s.emit (.op .C cw)) (.event (.op .C cw) trivial)
    (.event (.resp .C (Response.error .invalidArgument)) trivial)

theorem State.snapshot_keepsRecord (p : Port) : s.KeepsRecord (s.snapshot p).1 :=
  .event (.snapshot p s.lanes s.valid) ⟨rfl, rfl⟩

/-- A commit takes the buffer from one record to the next, and no snapshot falls within it (R78). -/
theorem State.commit_untorn (code : Vector Code 8) (valid : BitVec 8) : s.Untorn (s.commit code valid) :=
  ⟨_, s.commit_hist code valid, fun _ he => .inl (List.mem_singleton.mp he ▸ trivial)⟩

/-- Hardware reset writes the buffer too, but adds no event (R340). -/
theorem State.hwReset_untorn (k : Straps) : s.Untorn (s.hwReset k) := .same

theorem State.request_keepsRecord (kind : ReqKind) (w : Width) (tx : TxWord) :
    s.KeepsRecord (s.request kind w tx).1 := by
  rcases s.request_cases kind w tx with ⟨b, _, h⟩ | ⟨a, b, rx, _, _, h⟩ | ⟨a, b, _, _, h⟩ <;> rw [h]
  · exact .same
  · exact .event (.frame w (w.trunc tx) (.rxOk (w.trunc rx))) trivial
  · exact .event (a.faultEvent w (w.trunc tx)) (by cases a <;> trivial)

theorem State.command_keepsRecord (cmd : BitVec 16) : s.KeepsRecord (s.command cmd).1 := s.request_keepsRecord _ _ _

theorem State.regWrite_keepsRecord (a : BitVec 7) (v : Byte) : s.KeepsRecord (s.regWrite a v).1 :=
  s.request_keepsRecord _ _ _

theorem State.request_seqK (kind : ReqKind) (w : Width) (tx : TxWord) : (s.request kind w tx).1.seqK = s.seqK := by
  rcases s.request_cases kind w tx with ⟨b, _, h⟩ | ⟨a, b, rx, _, _, h⟩ | ⟨a, b, _, _, h⟩ <;> rw [h]

theorem State.benchRequest_keepsRecord (kind : ReqKind) (w : Width) (tx : TxWord) :
    s.KeepsRecord (s.benchRequest kind w tx) := by
  have h := s.request_keepsRecord kind w tx
  unfold State.benchRequest
  split <;> rename_i hr <;> rw [hr] at h
  · exact h.trans .same
  · exact h.trans .same

end

/-! ## Port C beside a step (R79) -/

/-- `t` is `s` after port C: the record, the operation in progress and its step stay. -/
structure State.Beside (s t : State) : Prop where
  keeps : s.KeepsRecord t
  busy : t.busy = s.busy
  seqK : t.seqK = s.seqK

theorem State.Beside.refl (s : State) : s.Beside s := ⟨.refl s, rfl, rfl⟩

theorem State.popSlot_beside (s : State) (l : List Slot) : s.Beside { s with slots := l } := ⟨.same, rfl, rfl⟩

theorem State.Beside.trans {s t u : State} (h : s.Beside t) (h' : t.Beside u) : s.Beside u :=
  ⟨h.keeps.trans h'.keeps, h'.busy.trans h.busy, h'.seqK.trans h.seqK⟩

theorem State.answersC_shows (s : State) (cw : HostWord) : ∀ e ∈ s.answersC cw, s.Shows e := by
  unfold State.answersC
  split <;> simp [State.Shows]

theorem State.serveAll_beside (s : State) (cws : List HostWord) : s.Beside (s.serveAll cws) := by
  have hshows : ∀ e ∈ cws.flatMap s.answersC, s.Shows e := fun e he => by
    obtain ⟨cw, _, he⟩ := List.mem_flatMap.mp he
    exact s.answersC_shows cw e he
  have huntorn : s.Untorn (s.serveAll cws) := ⟨_, s.serveAll_hist cws, fun e he => .inl (hshows e he)⟩
  obtain ⟨r, evs, lock, _, _, h⟩ := State.serveAll_frame cws s
  rw [h] at huntorn ⊢
  exact ⟨⟨rfl, huntorn⟩, rfl, rfl⟩

/-- A tick of `f` where no hardware reset is due is `f` with port C before it and after it. -/
theorem State.tick_beside (f : State → State) {s : State} (hr : s.NoRst) :
    ∃ u, s.Beside u ∧ (f u).Beside (s.tick f) := by
  have hpop := s.popSlot_beside
  rcases s.tick_cases f with ⟨_, ht⟩ | ⟨l, _, ht⟩ | ⟨cws, l, _, ht⟩ | ⟨cws, l, _, ht⟩ | ⟨k, l, h, _⟩
  · exact ⟨s, .refl s, ht ▸ .refl _⟩
  · exact ⟨_, hpop l, ht ▸ .refl _⟩
  · exact ⟨_, (hpop l).trans (State.serveAll_beside _ cws), ht ▸ .refl _⟩
  · exact ⟨_, hpop l, ht ▸ State.serveAll_beside _ cws⟩
  · exact absurd (h ▸ List.mem_cons_self) (hr k)

theorem State.tick_keepsRecord {f : State → State} (hf : ∀ s : State, s.KeepsRecord (f s)) {s : State} (hr : s.NoRst) :
    s.KeepsRecord (s.tick f) := by
  obtain ⟨u, hu, ht⟩ := State.tick_beside f hr
  exact hu.keeps.trans ((hf u).trans ht.keeps)

/-! ## Operations that write the buffer at most once -/

/-- From `s` to `t` the buffer has not been written, or it has, and the operation is at a step past its write or has
responded. -/
def State.WritesOnce (past : Nat → Prop) (s t : State) : Prop :=
  s.KeepsRecord t ∨ s.Untorn t ∧ (t.busy = true → past t.seqK)

/-- What a step from `s` answers keeps the record, or sends no frame and writes the buffer as it responds. -/
def State.WritesLast (s : State) (res : State × Option FtReply) : Prop :=
  s.KeepsRecord res.1 ∨ ∃ t, res = noFrame t ∧ s.Untorn t ∧ t.busy = false

/-- An operation that writes the buffer only in a step without a frame; unless it then responds, it goes on to the steps
`past`, which write it no more and lead only to one another. -/
structure SeqOp.WritesOnce (op : SeqOp) (past : Nat → Prop) : Prop where
  step : ∀ (k : Nat) (s : State),
    s.KeepsRecord (op.step k s).1 ∨ ∃ t, op.step k s = noFrame t ∧ s.Untorn t ∧ (t.busy = true → past t.seqK)
  reply : ∀ (k : Nat) (r : FtReply) (s : State), s.KeepsRecord (op.reply k r s)
  pastStep : ∀ s : State, past s.seqK →
    s.KeepsRecord (op.step s.seqK s).1 ∧ past (op.step s.seqK s).1.seqK
  pastReply : ∀ (k : Nat) (r : FtReply) (s : State), past s.seqK → past (op.reply k r s).seqK

namespace SeqOp.WritesOnce

/-- An operation that never writes the buffer, or writes it only as it responds, has no steps past its write. -/
theorem of_last {op : SeqOp} (step : ∀ (k : Nat) (s : State), s.WritesLast (op.step k s))
    (reply : ∀ (k : Nat) (r : FtReply) (s : State), s.KeepsRecord (op.reply k r s)) :
    op.WritesOnce fun _ => False where
  step k s := (step k s).imp_right fun ⟨t, ht, hw, hb⟩ => ⟨t, ht, hw, fun hbusy => nomatch hb.symm.trans hbusy⟩
  reply := reply
  pastStep _ := False.elim
  pastReply _ _ _ := id

theorem of_keeps {op : SeqOp} (step : ∀ (k : Nat) (s : State), s.KeepsRecord (op.step k s).1)
    (reply : ∀ (k : Nat) (r : FtReply) (s : State), s.KeepsRecord (op.reply k r s)) :
    op.WritesOnce fun _ => False := of_last (fun k s => .inl (step k s)) reply

variable {op : SeqOp} {past : Nat → Prop} (h : op.WritesOnce past)
include h

theorem micro (s : State) : s.WritesOnce past (op.micro s) := by
  unfold SeqOp.micro
  rcases h.step s.seqK s with hs | ⟨t, ht, hw⟩
  · split <;> rename_i ht <;> rw [ht] at hs
    · exact .inl hs
    · exact .inl (hs.trans (h.reply _ _ _))
  · rw [ht]
    exact .inr hw

theorem pastMicro {s : State} (hs : past s.seqK) : s.KeepsRecord (op.micro s) ∧ past (op.micro s).seqK := by
  obtain ⟨hk, hp⟩ := h.pastStep s hs
  unfold SeqOp.micro
  split <;> rename_i ht <;> rw [ht] at hk hp
  · exact ⟨hk, hp⟩
  · exact ⟨hk.trans (h.reply _ _ _), h.pastReply _ _ _ hp⟩

/-- A tick of an operation that has not responded: its write comes now, or it has come and does not come again. -/
theorem tick {s t : State} (ht : s.WritesOnce past t) (hbusy : t.busy = true) (hr : t.NoRst) :
    s.WritesOnce past (t.tick op.micro) := by
  obtain ⟨u, hu, hv⟩ := State.tick_beside op.micro hr
  rcases ht with hkeeps | ⟨hw, hpast⟩
  · have hsu := hkeeps.trans hu.keeps
    rcases h.micro u with hm | ⟨hm, hover⟩
    · exact .inl (hsu.trans (hm.trans hv.keeps))
    · refine .inr ⟨(hsu.then_untorn hm).then_keeps hv.keeps, fun hb => ?_⟩
      rw [hv.seqK]
      exact hover (hv.busy.symm.trans hb)
  · obtain ⟨hm, hover⟩ := h.pastMicro (s := u) (hu.seqK ▸ hpast hbusy)
    refine .inr ⟨hw.then_keeps (hu.keeps.trans (hm.trans hv.keeps)), fun _ => ?_⟩
    rw [hv.seqK]
    exact hover

/-- The run of an operation from any of its steps. -/
theorem run (hslots : op.KeepsSlots) (n : Nat) {s : State} (hr : s.NoRst) : s.Untorn (op.run n s) := by
  obtain ⟨_, hw⟩ := op.run_keeps (P := fun t => t.NoRst ∧ s.WritesOnce past t)
    (fun _ ⟨hr, ht⟩ hbusy _ => ⟨State.tick_noRst hslots hr, h.tick ht hbusy hr⟩) n s ⟨hr, .inl (.refl s)⟩
  exact hw.elim (·.untorn) (·.1)

end SeqOp.WritesOnce

/-! ## The operations of 41, 42 and 43 -/

/-- RESET clears VALID in its step 0 and goes on from there to the end (R166). -/
theorem resetOp_writesOnce : resetOp.WritesOnce fun k => 0 < k where
  step k s := by
    rcases k with _ | _ | _ | _ | _ | _ | _ | k
    · exact .inr ⟨_, rfl, .same, fun _ => Nat.one_pos⟩
    · exact .inl (.event .csDeassert trivial)
    · exact .inl (.event (.delay s.cfg.tPowerStable) trivial)
    · exact .inl (s.command_keepsRecord _)
    · exact .inl (.event (.delay s.cfg.tResetSettle) trivial)
    · exact .inl (s.regWrite_keepsRecord _ _)
    · exact .inl (.event (.resp .P Response.plain) trivial)
    · exact .inl s.raiseConfigFault_keepsRecord
  reply _ _ s := .ite (s.goto_keepsRecord _) (s.goto_keepsRecord _)
  pastStep s hs := by
    have hrequest : ∀ kind w tx, s.KeepsRecord (s.request kind w tx).1 ∧ 0 < (s.request kind w tx).1.seqK :=
      fun kind w tx => ⟨s.request_keepsRecord kind w tx, (s.request_seqK kind w tx).symm ▸ hs⟩
    rcases hk : s.seqK with _ | _ | _ | _ | _ | _ | _ | k
    · exact absurd hk hs.ne'
    · exact ⟨.event .csDeassert trivial, Nat.succ_pos _⟩
    · exact ⟨.event (.delay s.cfg.tPowerStable) trivial, Nat.succ_pos _⟩
    · exact hrequest _ _ _
    · exact ⟨.event (.delay s.cfg.tResetSettle) trivial, Nat.succ_pos _⟩
    · exact hrequest _ _ _
    · exact ⟨.event (.resp .P Response.plain) trivial, hs⟩
    · exact ⟨s.raiseConfigFault_keepsRecord, hs⟩
  pastReply k r s hs := by
    show 0 < (s.nextOr k r 7).seqK
    unfold State.nextOr
    split <;> exact Nat.succ_pos _

theorem powerOnAllOp_writesOnce : powerOnAllOp.WritesOnce fun _ => False := by
  refine .of_keeps (fun k s => ?_) fun _ _ s => .ite (s.goto_keepsRecord _) s.raiseConfigFault_keepsRecord
  rcases k with _ | _ | k
  · exact .same
  · exact s.regWrite_keepsRecord _ _
  · exact s.respondP_keepsRecord _

theorem illegalOperandOp_writesOnce : illegalOperandOp.WritesOnce fun _ => False :=
  .of_keeps (fun _ s => s.raise_keepsRecord _) fun _ _ s => .refl s

theorem setRangeOp_writesOnce (ch rg : Byte) : (setRangeOp ch rg).WritesOnce fun _ => False := by
  unfold setRangeOp
  split
  · split
    · refine .of_keeps (fun k s => ?_) fun _ _ s => .ite (s.goto_keepsRecord _) s.raiseConfigFault_keepsRecord
      rcases k with _ | _ | k
      · exact .same
      · exact State.KeepsRecord.trans (t := { s with autoArmed := false }) .same (State.regWrite_keepsRecord _ _ _)
      · exact .event (.resp .P Response.plain) trivial
    · exact illegalOperandOp_writesOnce
  · exact illegalOperandOp_writesOnce

theorem getRangeOp_writesOnce (ch : Byte) : (getRangeOp ch).WritesOnce fun _ => False := by
  unfold getRangeOp
  split
  · exact .of_keeps (fun _ s => s.respondP_keepsRecord _) fun _ _ s => .refl s
  · exact illegalOperandOp_writesOnce

theorem enterScanOp_writesOnce : enterScanOp.WritesOnce fun _ => False := by
  refine .of_keeps (fun k s => ?_) fun _ _ s => .ite (.ite .same (s.goto_keepsRecord _)) s.raiseConfigFault_keepsRecord
  rcases k with _ | _ | _ | k
  · exact .ite (s.raise_keepsRecord _) (.ite (s.goto_keepsRecord _) (s.goto_keepsRecord _))
  · exact State.KeepsRecord.trans (t := { s with autoArmed := false }) .same (State.regWrite_keepsRecord _ _ _)
  · exact s.command_keepsRecord _
  · exact .event (.resp .P Response.plain) trivial

/-- READ_CH commits in the step that responds (R203, R204). -/
theorem readChOp_writesOnce (ch : Byte) : (readChOp ch).WritesOnce fun _ => False := by
  unfold readChOp
  split
  · rename_i c _
    refine .of_last (fun k s => ?_) fun _ _ s => .ite (.ite .same (s.goto_keepsRecord _)) (s.goto_keepsRecord _)
    rcases k with _ | _ | _ | _ | k
    · exact .inl (.ite (s.goto_keepsRecord _) (s.raise_keepsRecord _))
    · exact .inl (State.KeepsRecord.trans (t := { s with autoArmed := false, svalid := clearFlag s.svalid c }) .same
        (State.command_keepsRecord _ _))
    · exact .inl (s.command_keepsRecord _)
    · exact .inr ⟨_, rfl, (s.commit_untorn _ _).then_keeps (State.respondP_keepsRecord _ _), rfl⟩
    · exact .inr ⟨_, rfl, (s.commit_untorn _ _).then_keeps (State.raise_keepsRecord _ _), rfl⟩
  · exact .of_keeps (fun _ s => .ite (s.raise_keepsRecord _) (s.raise_keepsRecord _)) fun _ _ s => .refl s

theorem scanStart_keepsRecord (s : State) : s.KeepsRecord (scanStart s) := .ite .same (s.raise_keepsRecord _)

theorem scanDone_untorn (s : State) : s.Untorn (scanDone s) :=
  (s.commit_untorn _ _).then_keeps (State.respondP_keepsRecord _ _)

theorem scanFault_untorn (s : State) : s.Untorn (scanFault s) :=
  (State.KeepsRecord.same : s.KeepsRecord { s with autoArmed := false }).then_untorn
    ((State.commit_untorn _ _ _).then_keeps (State.respondP_keepsRecord _ _))

theorem scanManualStep_writesLast (k : Nat) (s : State) : s.WritesLast (scanManualStep k s) := by
  unfold scanManualStep
  split
  · exact .inl (scanStart_keepsRecord s)
  · exact .inl (s.command_keepsRecord _)
  · exact .inr ⟨_, rfl, scanDone_untorn s, rfl⟩
  · split
    · exact .inl (s.command_keepsRecord _)
    · exact .inr ⟨_, rfl, scanFault_untorn s, rfl⟩

theorem scanAutoStep_writesLast (k : Nat) (s : State) : s.WritesLast (scanAutoStep k s) := by
  unfold scanAutoStep
  split
  · exact .inl (scanStart_keepsRecord s)
  · split
    · exact .inl (s.goto_keepsRecord _)
    · exact .inl (s.command_keepsRecord _)
  · exact .inl (State.KeepsRecord.trans (t := { s with autoArmed := false }) .same (State.command_keepsRecord _ _))
  · exact .inl (s.command_keepsRecord _)
  · exact .inr ⟨_, rfl, scanDone_untorn s, rfl⟩
  · split
    · exact .inl (s.command_keepsRecord _)
    · exact .inr ⟨_, rfl, scanFault_untorn s, rfl⟩

/-- A pass commits in the step that responds, complete or faulted (R211, R216). -/
theorem scanAllOp_writesOnce : scanAllOp.WritesOnce fun _ => False := by
  refine .of_last (fun k s => ?_) fun k r s => ?_ <;> simp only [scanAllOp] <;> split
  · exact scanManualStep_writesLast k s
  · exact scanAutoStep_writesLast k s
  · exact .ite (.ite (s.goto_keepsRecord _) .same) (s.goto_keepsRecord _)
  · exact .ite (.ite .same (.ite .same .same)) (s.goto_keepsRecord _)

theorem getCodesOp_writesOnce : getCodesOp.WritesOnce fun _ => False :=
  .of_keeps (fun _ s => (s.snapshot_keepsRecord .P).trans (State.respondP_keepsRecord _ _)) fun _ _ s => .refl s

theorem toVoltageOp_writesOnce (code : Code) (rg : Byte) : (toVoltageOp code rg).WritesOnce fun _ => False :=
  .of_keeps (fun _ s => s.respondP_keepsRecord _) fun _ _ s => .refl s

theorem seqOpOf_writesOnce {i : Instr} {op : SeqOp} (h : seqOpOf i = some op) : ∃ past, op.WritesOnce past := by
  cases i with
  | reset => cases h; exact ⟨_, resetOp_writesOnce⟩
  | powerOnAll => cases h; exact ⟨_, powerOnAllOp_writesOnce⟩
  | setRange ch rg => cases h; exact ⟨_, setRangeOp_writesOnce ch rg⟩
  | getRange ch => cases h; exact ⟨_, getRangeOp_writesOnce ch⟩
  | enterScan => cases h; exact ⟨_, enterScanOp_writesOnce⟩
  | readCh ch => cases h; exact ⟨_, readChOp_writesOnce ch⟩
  | scanAll => cases h; exact ⟨_, scanAllOp_writesOnce⟩
  | getCodes => cases h; exact ⟨_, getCodesOp_writesOnce⟩
  | toVoltage code rg => cases h; exact ⟨_, toVoltageOp_writesOnce code rg⟩
  | _ => cases h

theorem State.run_untorn {i : Instr} {op : SeqOp} (h : seqOpOf i = some op) (n : Nat) {s : State} (hr : s.NoRst) :
    s.Untorn (op.run n s) := by
  obtain ⟨_, hw⟩ := seqOpOf_writesOnce h
  obtain ⟨_, _, hslots⟩ := seqOpOf_blind h
  exact hw.run hslots n hr

/-! ## While an operation or a frame is in progress -/

theorem State.shiftStep_keepsRecord (s : State) : s.KeepsRecord s.shiftStep := by
  rcases s.shiftStep_cases with h | ⟨_, _, _, _, _, h⟩ | ⟨_, _, _, h⟩ | ⟨_, h⟩ <;> rw [h]
  · rw [s.endShift_eq]; exact .same
  · exact .same
  · exact .same
  · exact .same

/-- The rest of a micro-step that waited for FT writes no buffer. -/
theorem State.finishFrame_keepsRecord (s : State) : s.KeepsRecord s.finishFrame := by
  have hsettle : s.KeepsRecord s.endSettle.1 := .event (.frame s.ft.w s.ft.shTx s.ft.outcome) trivial
  rcases s.finishFrame_cases with ⟨_, h⟩ | ⟨_, op, hop, h⟩ | ⟨_, _, h⟩ <;> rw [h]
  · exact hsettle.trans .same
  · obtain ⟨i, hi⟩ := State.currentOp_seqOpOf hop
    obtain ⟨_, hw⟩ := seqOpOf_writesOnce hi
    exact hsettle.trans (hw.reply _ _ _)
  · exact hsettle

section
variable {s : State} (hr : s.NoRst)
include hr

theorem State.resume_untorn {t : State} (h : s.resume = .next t) : s.Untorn t := by
  rcases s.resume_cases with ⟨_, _, op, hop, hs⟩ | ⟨_, _, _, hs⟩ | ⟨_, hs⟩ <;> cases hs.symm.trans h
  · obtain ⟨i, hi⟩ := State.currentOp_seqOpOf hop
    exact State.run_untorn hi _ hr
  · exact .same

theorem State.proceed_untorn {t : State} (h : s.proceed = .next t) : s.Untorn t := by
  unfold State.proceed at h
  split at h
  · cases h; exact (State.tick_keepsRecord State.shiftStep_keepsRecord hr).untorn
  · rcases s.settleStep_cases with ⟨_, hs⟩ | ⟨_, _, hs⟩ | ⟨_, _, _, hs⟩ <;> rw [hs] at h
    · cases h; exact (State.tick_keepsRecord (fun _ => .same) hr).untorn
    · exact (State.tick_keepsRecord State.finishFrame_keepsRecord hr).then_untorn
        (State.resume_untorn (State.tick_noRst (fun u => u.finishFrame_grows.slots) hr) h)
    · cases h
  · exact State.resume_untorn hr h

/-! ## Instructions and words -/

theorem exec_untorn (i : Instr) : ∃ t, exec i s = .next t ∧ s.Untorn t := by
  cases hop : seqOpOf i with
  | none =>
    refine ⟨_, exec_bench s hop, ?_⟩
    cases benchFrame s.cfg i with
    | none => exact .same
    | some f => exact (s.benchRequest_keepsRecord _ _ _).untorn
  | some op =>
    cases hp : s.port with
    | P => exact ⟨_, exec_portP hop hp, (s.acceptP_keepsRecord _).then_untorn (State.run_untorn hop _ hr)⟩
    | C => exact ⟨_, exec_portC (Option.isSome_of_eq_some hop) hp, (s.serveAll_beside [_]).keeps.untorn⟩

theorem State.runWord_untorn (p : Port) (cw : HostWord) : ∃ t, s.runWord p cw = .next t ∧ s.Untorn t := by
  unfold State.runWord
  split
  · exact exec_untorn (s := { s with port := p }) hr _
  · refine ⟨_, rfl, State.KeepsRecord.untorn ?_⟩
    cases p with
    | P => exact (s.acceptP_keepsRecord cw).trans (State.raise_keepsRecord _ _)
    | C => exact s.refuseC_keepsRecord cw

theorem State.runRequest_untorn (rq : RequestWord) : ∃ t, s.runRequest rq = .next t ∧ s.Untorn t := by
  unfold State.runRequest
  split
  · exact exec_untorn hr _
  · exact ⟨_, rfl, .same⟩

theorem State.runFrame_untorn (w : Width) (tx : TxWord) : ∃ t, s.runFrame w tx = .next t ∧ s.Untorn t := by
  unfold State.runFrame
  split
  · exact exec_untorn hr _
  · exact ⟨_, rfl, (s.benchRequest_keepsRecord _ w tx).untorn⟩

end

/-! ## The step -/

theorem scriptMove_keepsRecord (fresh : Bool) (ws : List HostWord) (l : List Input) (s : State) :
    s.KeepsRecord (scriptMove fresh ws l s) := by
  unfold scriptMove
  refine .ite .same ?_
  split
  · exact .same
  · exact .same

theorem State.stepFree_untorn {s : State} (hr : s.NoRst) : ∃ t, s.stepFree = .next t ∧ s.Untorn t := by
  unfold State.stepFree
  cases s.inbox with
  | nil => exact ⟨_, rfl, .same⟩
  | cons x l =>
    cases x with
    | portP cw => exact State.runWord_untorn (s := { s with inbox := l }) hr .P cw
    | portC cw => exact State.runWord_untorn (s := { s with inbox := l }) hr .C cw
    | request rq => exact State.runRequest_untorn (s := { s with inbox := l }) hr rq
    | frame w tx => exact State.runFrame_untorn (s := { s with inbox := l }) hr w tx
    | rst k => exact ⟨_, rfl, State.hwReset_untorn { s with inbox := l } k⟩
    | startup ranges now => exact ⟨_, rfl, .same⟩
    | schedStart now => exact ⟨_, rfl, (State.KeepsRecord.ite .same .same).untorn⟩
    | iterate scan8 now wake => exact ⟨_, rfl, (State.KeepsRecord.ite .same .same).untorn⟩
    | report => exact ⟨_, rfl, (State.KeepsRecord.ite .same .same).untorn⟩
    | finish now wake => exact ⟨_, rfl, (State.KeepsRecord.ite (.ite .same .same) .same).untorn⟩
    | sleepMicros n wake => exact ⟨_, rfl, .same⟩
    | script fresh ws => exact ⟨_, rfl, (scriptMove_keepsRecord fresh ws l s).untorn⟩

/-- The snapshots of a step show the record that it begins with or the one it ends with. -/
theorem step_untorn {s t : State} (hr : s.NoRst) (h : step s = .next t) : s.Untorn t := by
  have hwf := wf_of_step_next h
  cases hb : s.busy with
  | false =>
    obtain ⟨u, hu, huntorn⟩ := State.stepFree_untorn (s := s.clearOutputs) hr
    cases ((step_legal hwf).trans ((if_neg (by simp [hb])).trans hu)).symm.trans h
    exact huntorn
  | true =>
    rcases step_busy_cases hwf hb with ⟨cw, l, p, _, ht⟩ | ⟨k, l, _, ht⟩ | ht
    · cases ht.symm.trans h
      exact (State.serveAll_beside { s.clearOutputs with inbox := l, port := p } [cw]).keeps.untorn
    · cases ht.symm.trans h
      exact State.hwReset_untorn { s.clearOutputs with inbox := l } k
    · exact State.proceed_untorn (s := s.clearOutputs) hr (ht.symm.trans h)

/-- Settles O16: the events that a step adds are those after the history it began with. -/
theorem snapshotsAreNeverTorn : Obligations.SnapshotsAreNeverTorn := by
  intro s t hr h p codes v hmem
  obtain ⟨evs, hist, hshows⟩ := step_untorn hr h
  rw [hist, List.drop_left] at hmem
  exact hshows _ hmem

end Sys2Proof.Machine
end

section
/-! PROOFS. The encodings of the two other levels, and the round trips of all three (R90, R106 to R112): requests and
frames field by field, the rows of the wire under R11's constraints, and from them both directions for every row. -/

namespace Sys2Proof

/-! ## Transport requests (R106) -/

theorem requestWord_kind (kind : BitVec 1) (wsel : BitVec 2) (payload : BitVec 32) :
    (requestWord kind wsel payload).extractLsb' 34 1 = kind := by
  rw [requestWord, BitVec.append_assoc]
  exact BitVec.extractLsb'_append_eq_left

theorem requestWord_wsel (kind : BitVec 1) (wsel : BitVec 2) (payload : BitVec 32) :
    (requestWord kind wsel payload).extractLsb' 32 2 = wsel := by
  rw [requestWord, BitVec.extractLsb'_append_eq_of_le (by decide)]
  exact BitVec.extractLsb'_append_eq_right

theorem requestWord_payload (kind : BitVec 1) (wsel : BitVec 2) (payload : BitVec 32) {lo n : Nat} (h : lo + n ≤ 32) :
    (requestWord kind wsel payload).extractLsb' lo n = payload.extractLsb' lo n :=
  BitVec.extractLsb'_append_eq_of_add_le h

/-- A request word is put together from its three fields. -/
theorem requestWord_fields (rq : RequestWord) :
    requestWord (rq.extractLsb' 34 1) (rq.extractLsb' 32 2) (rq.extractLsb' 0 32) = rq := by
  rw [requestWord, BitVec.extractLsb'_append_extractLsb'_eq_extractLsb' (by omega),
    BitVec.extractLsb'_append_extractLsb'_eq_extractLsb' (by omega), BitVec.extractLsb'_eq_self]

/-- The payload of a WRITE_REG (R106). -/
theorem writeRegPayload_fields (rq : RequestWord) :
    rq.extractLsb' 15 17 ++ rq.extractLsb' 8 7 ++ rq.extractLsb' 0 8 = rq.extractLsb' 0 32 := by
  rw [BitVec.extractLsb'_append_extractLsb'_eq_extractLsb' (by omega),
    BitVec.extractLsb'_append_extractLsb'_eq_extractLsb' (by omega)]

theorem decodeRequest_transact (wsel : BitVec 2) (payload : BitVec 32) :
    decodeRequest (requestWord 0 wsel payload) = .ok (.transact wsel payload) := by
  rw [decodeRequest, if_pos (requestWord_kind _ _ _), requestWord_wsel, requestWord_payload _ _ _ (by decide),
    BitVec.extractLsb'_eq_self]

theorem decodeRequest_writeReg (a : BitVec 7) (v : Byte) :
    decodeRequest (requestWord 1 1 ((0 : BitVec 17) ++ a ++ v)) = .ok (.writeReg a v) := by
  have hzero : ((0 : BitVec 17) ++ a ++ v).extractLsb' 15 17 = 0 := by
    rw [BitVec.append_assoc]
    exact BitVec.extractLsb'_append_eq_left
  have haddr : ((0 : BitVec 17) ++ a ++ v).extractLsb' 8 7 = a := by
    rw [BitVec.extractLsb'_append_eq_of_le (by decide)]
    exact BitVec.extractLsb'_append_eq_right
  have hvalue : ((0 : BitVec 17) ++ a ++ v).extractLsb' 0 8 = v := BitVec.extractLsb'_append_eq_right
  rw [decodeRequest, requestWord_kind, if_neg (by decide), requestWord_wsel]
  simp only [requestWord_payload, Nat.reduceAdd, Nat.reduceLeDiff, hzero, haddr, hvalue, and_self, if_true]

/-- A request that decodes is the request of the instruction it decodes to. -/
theorem decodeRequest_ok (c : Config) {rq : RequestWord} {i : Instr} (h : decodeRequest rq = .ok i) :
    encode c i = .request rq ∧ i.wellFormed c = true := by
  unfold decodeRequest at h
  split at h
  · rename_i hkind
    cases h
    exact ⟨congrArg Packet.request (hkind ▸ requestWord_fields rq), rfl⟩
  · rename_i hkind
    split at h
    · rename_i hfields
      obtain ⟨hwsel, hzero⟩ := hfields
      cases h
      have hone : rq.extractLsb' 34 1 = 1 := (BitVec.eq_zero_or_eq_one _).resolve_left hkind
      refine ⟨congrArg Packet.request ?_, rfl⟩
      rw [← hzero, writeRegPayload_fields, ← hone, ← hwsel, requestWord_fields]
    · cases h

/-! ## The fields of a frame (R108, R109) -/

theorem cmdFrame_fields {tx : TxWord} (h : tx.extractLsb' 0 16 = (0 : BitVec 16)) :
    cmdFrame (tx.extractLsb' 16 16) = tx := by
  rw [cmdFrame, ← h, BitVec.extractLsb'_append_extractLsb'_eq_extractLsb' (by omega), BitVec.extractLsb'_eq_self]

theorem regFrame_fields {tx : TxWord} (hhigh : tx.extractLsb' 24 8 = (0 : BitVec 8))
    (hflag : tx.extractLsb' 16 1 = (1 : BitVec 1)) (hlow : tx.extractLsb' 0 8 = (0 : BitVec 8)) :
    regFrame (tx.extractLsb' 17 7) (tx.extractLsb' 8 8) = tx := by
  have happend : tx.extractLsb' 24 8 ++ tx.extractLsb' 17 7 ++ tx.extractLsb' 16 1 ++ tx.extractLsb' 8 8 ++
      tx.extractLsb' 0 8 = tx := by
    rw [BitVec.extractLsb'_append_extractLsb'_eq_extractLsb' (by omega),
      BitVec.extractLsb'_append_extractLsb'_eq_extractLsb' (by omega),
      BitVec.extractLsb'_append_extractLsb'_eq_extractLsb' (by omega),
      BitVec.extractLsb'_append_extractLsb'_eq_extractLsb' (by omega), BitVec.extractLsb'_eq_self]
  rwa [hhigh, hflag, hlow] at happend

/-! ## The search for a channel (R61, R111) -/

theorem mem_channels (n : Chan) : n ∈ channels := by revert n; decide

/-- The search finds the one channel with the property. -/
theorem find_channel {p : Chan → Bool} {n : Chan} (hn : p n = true) (huniq : ∀ m, p m = true → m = n) :
    channels.find? p = some n := by
  obtain ⟨m, hm⟩ := Option.isSome_iff_exists.mp (List.find?_isSome.mpr ⟨n, mem_channels n, hn⟩)
  rw [hm, huniq m (List.find?_some hm)]

theorem Config.manChOf_some {c : Config} {cmd : BitVec 16} {n : Chan} (h : c.manChOf cmd = some n) :
    c.opcManCh[n] = cmd :=
  beq_iff_eq.mp (List.find?_some (p := fun n => c.opcManCh[n] == cmd) h)

theorem Config.rangeChOf_some {c : Config} {a : BitVec 7} {n : Chan} (h : c.rangeChOf a = some n) :
    c.rangeReg n = a :=
  beq_iff_eq.mp (List.find?_some (p := fun n => c.rangeReg n == a) h)

theorem Config.rangeChOf_rangeReg {c : Config} (hbase : c.regRangeBase.toNat + 7 ≤ 0x7F) (n : Chan) :
    c.rangeChOf (c.rangeReg n) = some n :=
  find_channel (beq_self_eq_true _) fun _ hm => c.rangeReg_injective hbase (beq_iff_eq.mp hm)

/-- The addresses of the eight range registers are those of the block (R61, R70). -/
theorem Config.isRangeReg_iff_rangeReg {c : Config} (hbase : c.regRangeBase.toNat + 7 ≤ 0x7F) (a : BitVec 7) :
    c.isRangeReg a = true ↔ ∃ n, c.rangeReg n = a := by
  rw [c.isRangeReg_iff]
  constructor
  · rintro ⟨hlo, hhi⟩
    refine ⟨⟨a.toNat - c.regRangeBase.toNat, by omega⟩, BitVec.eq_of_toNat_eq ?_⟩
    rw [c.rangeReg_toNat _ hbase]
    exact Nat.add_sub_cancel' hlo
  · rintro ⟨n, rfl⟩
    rw [c.rangeReg_toNat n hbase]
    omega

theorem Config.rangeChOf_eq_none {c : Config} (hbase : c.regRangeBase.toNat + 7 ≤ 0x7F) {a : BitVec 7} :
    c.rangeChOf a = none ↔ ¬c.isRangeReg a = true := by
  rw [Config.isRangeReg_iff_rangeReg hbase]
  constructor
  · rintro hnone ⟨n, rfl⟩
    cases hnone.symm.trans (Config.rangeChOf_rangeReg hbase n)
  · exact fun hno => Option.eq_none_iff_forall_ne_some.mpr fun n hn => hno ⟨n, Config.rangeChOf_some hn⟩

/-! ## Command frames (R111) -/

/-- The three fixed commands are distinct, no select command is one of them, and no two channels share a select
command (R11). -/
theorem Config.commands_distinct {c : Config} (h : c.commands.Nodup) :
    (c.opcRst ≠ c.opcNoOp ∧ c.opcAutoRst ≠ c.opcNoOp ∧ c.opcAutoRst ≠ c.opcRst) ∧
      (∀ n : Chan, c.opcManCh[n] ≠ c.opcNoOp ∧ c.opcManCh[n] ≠ c.opcRst ∧ c.opcManCh[n] ≠ c.opcAutoRst) ∧
      ∀ m n : Chan, c.opcManCh[m] = c.opcManCh[n] → m = n := by
  simp only [Config.commands, List.nodup_cons, List.mem_cons, not_or, Vector.mem_toList_iff] at h
  obtain ⟨⟨hnr, hna, hnm⟩, ⟨hra, hrm⟩, ham, hnodup⟩ := h
  refine ⟨⟨Ne.symm hnr, Ne.symm hna, Ne.symm hra⟩, fun n => ?_, fun m n hmn => ?_⟩
  · have hmem : c.opcManCh[n] ∈ c.opcManCh := Vector.getElem_mem n.isLt
    exact ⟨fun h => hnm (h ▸ hmem), fun h => hrm (h ▸ hmem), fun h => ham (h ▸ hmem)⟩
  · have hlist : c.opcManCh.toList[m.val] = c.opcManCh.toList[n.val] := by
      rw [Vector.getElem_toList, Vector.getElem_toList]; exact hmn
    exact Fin.ext ((List.Nodup.getElem_inj_iff hnodup).mp hlist)

/-- Under R11 the search finds the channel of a select command. -/
theorem Config.manChOf_opcManCh {c : Config} (h : c.commands.Nodup) (n : Chan) : c.manChOf c.opcManCh[n] = some n :=
  find_channel (beq_self_eq_true _) fun _ hm => (Config.commands_distinct h).2.2 _ _ (beq_iff_eq.mp hm)

/-- A command word is that of a row: its branches in the order in which the decoder tries them. -/
theorem decodeCommandFrame_cmdFrame (c : Config) (cmd : BitVec 16) :
    decodeCommandFrame c (cmdFrame cmd) =
      if cmd = c.opcNoOp then .ok .wNoOp
      else if cmd = c.opcRst then .ok .wRst
      else if cmd = c.opcAutoRst then .ok .wAutoRst
      else ((c.manChOf cmd).map Instr.wManCh).elim (.error .unknownCommand) .ok := by
  simp only [decodeCommandFrame, cmdFrame_command, cmdFrame_low, if_true]
  cases c.manChOf cmd <;> rfl

theorem encode_wManCh (c : Config) (n : Chan) :
    encode c (.wManCh n) = .frame .w32 (cmdFrame c.opcManCh[n]) := by
  fin_cases n <;> rfl

theorem wManCh_wellFormed (c : Config) (n : Chan) : (Instr.wManCh n).wellFormed c = true := by
  fin_cases n <;> rfl

section
variable {c : Config} (h : c.commands.Nodup)
include h

theorem decodeCommandFrame_opcRst : decodeCommandFrame c (cmdFrame c.opcRst) = .ok .wRst := by
  obtain ⟨⟨hrn, _, _⟩, _, _⟩ := Config.commands_distinct h
  rw [decodeCommandFrame_cmdFrame, if_neg hrn, if_pos rfl]

theorem decodeCommandFrame_opcAutoRst : decodeCommandFrame c (cmdFrame c.opcAutoRst) = .ok .wAutoRst := by
  obtain ⟨⟨_, han, har⟩, _, _⟩ := Config.commands_distinct h
  rw [decodeCommandFrame_cmdFrame, if_neg han, if_neg har, if_pos rfl]

theorem decodeCommandFrame_opcManCh (n : Chan) :
    decodeCommandFrame c (cmdFrame c.opcManCh[n]) = .ok (.wManCh n) := by
  obtain ⟨_, hfixed, _⟩ := Config.commands_distinct h
  obtain ⟨hn, hr, ha⟩ := hfixed n
  rw [decodeCommandFrame_cmdFrame, if_neg hn, if_neg hr, if_neg ha, Config.manChOf_opcManCh h]
  rfl

end

theorem decodeCommandFrame_opcNoOp (c : Config) : decodeCommandFrame c (cmdFrame c.opcNoOp) = .ok .wNoOp := by
  rw [decodeCommandFrame_cmdFrame, if_pos rfl]

/-- A command frame that decodes is the frame of the row it decodes to. -/
theorem decodeCommandFrame_ok {c : Config} {tx : TxWord} {i : Instr} (h : decodeCommandFrame c tx = .ok i) :
    encode c i = .frame .w32 tx ∧ i.wellFormed c = true := by
  simp only [decodeCommandFrame] at h
  split at h
  · rename_i hlow
    have hframe : ∀ {cmd}, tx.extractLsb' 16 16 = cmd → cmdFrame cmd = tx := fun hcmd => hcmd ▸ cmdFrame_fields hlow
    split at h
    · rename_i hcmd; cases h; exact ⟨congrArg _ (hframe hcmd), rfl⟩
    split at h
    · rename_i hcmd; cases h; exact ⟨congrArg _ (hframe hcmd), rfl⟩
    split at h
    · rename_i hcmd; cases h; exact ⟨congrArg _ (hframe hcmd), rfl⟩
    split at h
    · rename_i n hn
      cases h
      exact ⟨(encode_wManCh c n).trans (congrArg _ (hframe (Config.manChOf_some hn).symm)), wManCh_wellFormed c n⟩
    · cases h
  · cases h

/-! ## Register frames (R112) -/

theorem encode_wWrRange (c : Config) (n : Chan) (v : Byte) :
    encode c (.wWrRange n v) = .frame .w24 (regFrame (c.rangeReg n) v) := by
  fin_cases n <;> rfl

theorem wWrRange_wellFormed (c : Config) (n : Chan) (v : Byte) : (Instr.wWrRange n v).wellFormed c = true := by
  fin_cases n <;> rfl

theorem Config.isAutoSeqEnFrame_iff (c : Config) (a : BitVec 7) (v : Byte) :
    c.isAutoSeqEnFrame a v = true ↔ a = c.regAutoSeqEn ∧ v = c.seqEnAll := by
  simp only [Config.isAutoSeqEnFrame, Bool.and_eq_true, beq_iff_eq]

theorem Config.isChPwrDnFrame_iff (c : Config) (a : BitVec 7) (v : Byte) :
    c.isChPwrDnFrame a v = true ↔ a = c.regChPwrDn ∧ v = 0 := by
  simp only [Config.isChPwrDnFrame, Bool.and_eq_true, beq_iff_eq]

theorem wWr_wellFormed_iff (c : Config) (a : BitVec 7) (v : Byte) :
    (Instr.wWr a v).wellFormed c = true ↔
      ¬c.isAutoSeqEnFrame a v = true ∧ ¬c.isChPwrDnFrame a v = true ∧ ¬c.isRangeReg a = true := by
  simp only [Instr.wellFormed, Bool.and_eq_true, Bool.not_eq_true', Bool.not_eq_true, and_assoc]

/-- Whichever row a register write has, its frame is that write. -/
theorem encode_regWriteRow (c : Config) (a : BitVec 7) (v : Byte) :
    encode c (regWriteRow c a v) = .frame .w24 (regFrame a v) := by
  unfold regWriteRow
  split
  · rename_i h; obtain ⟨rfl, rfl⟩ := (c.isAutoSeqEnFrame_iff a v).mp h; rfl
  split
  · rename_i h; obtain ⟨rfl, rfl⟩ := (c.isChPwrDnFrame_iff a v).mp h; rfl
  split
  · rename_i n hn; rw [encode_wWrRange, Config.rangeChOf_some hn]
  · rfl

/-- The specific row wins over W.WR (R112). -/
theorem regWriteRow_wellFormed {c : Config} (hbase : c.regRangeBase.toNat + 7 ≤ 0x7F) (a : BitVec 7) (v : Byte) :
    (regWriteRow c a v).wellFormed c = true := by
  unfold regWriteRow
  split
  · rfl
  split
  · rfl
  split
  · exact wWrRange_wellFormed c _ v
  · rename_i hauto hpwr _ hnone
    exact (wWr_wellFormed_iff c a v).mpr ⟨hauto, hpwr, (Config.rangeChOf_eq_none hbase).mp hnone⟩

theorem regWriteRow_autoSeqEn (c : Config) : regWriteRow c c.regAutoSeqEn c.seqEnAll = .wWrAutoSeqEn :=
  if_pos ((c.isAutoSeqEnFrame_iff _ _).mpr ⟨rfl, rfl⟩)

theorem regWriteRow_chPwrDn {c : Config} (h : c.regAutoSeqEn ≠ c.regChPwrDn) :
    regWriteRow c c.regChPwrDn 0 = .wWrChPwrDn := by
  have hauto : ¬c.isAutoSeqEnFrame c.regChPwrDn 0 = true := fun hf => h ((c.isAutoSeqEnFrame_iff _ _).mp hf).1.symm
  rw [regWriteRow, if_neg hauto, if_pos ((c.isChPwrDnFrame_iff _ _).mpr ⟨rfl, rfl⟩)]

theorem regWriteRow_rangeReg {c : Config} (h : c.addressesOk = true) (n : Chan) (v : Byte) :
    regWriteRow c (c.rangeReg n) v = .wWrRange n v := by
  obtain ⟨_, hbase, _, hautoOut, hpwrOut⟩ := c.addressesOk_iff.mp h
  have hin : c.isRangeReg (c.rangeReg n) = true := (Config.isRangeReg_iff_rangeReg hbase _).mpr ⟨n, rfl⟩
  have hauto : ¬c.isAutoSeqEnFrame (c.rangeReg n) v = true := fun hf =>
    hautoOut (((c.isAutoSeqEnFrame_iff _ _).mp hf).1 ▸ hin)
  have hpwr : ¬c.isChPwrDnFrame (c.rangeReg n) v = true := fun hf =>
    hpwrOut (((c.isChPwrDnFrame_iff _ _).mp hf).1 ▸ hin)
  rw [regWriteRow, if_neg hauto, if_neg hpwr, Config.rangeChOf_rangeReg hbase]

theorem regWriteRow_wWr {c : Config} (hbase : c.regRangeBase.toNat + 7 ≤ 0x7F) {a : BitVec 7} {v : Byte}
    (h : (Instr.wWr a v).wellFormed c = true) : regWriteRow c a v = .wWr a v := by
  obtain ⟨hauto, hpwr, hrange⟩ := (wWr_wellFormed_iff c a v).mp h
  rw [regWriteRow, if_neg hauto, if_neg hpwr, (Config.rangeChOf_eq_none hbase).mpr hrange]

theorem decodeRegisterFrame_regFrame (c : Config) (a : BitVec 7) (v : Byte) :
    decodeRegisterFrame c (regFrame a v) = .ok (regWriteRow c a v) := by
  rw [decodeRegisterFrame, if_pos ⟨regFrame_high a v, regFrame_writeFlag a v, regFrame_low a v⟩, regFrame_address,
    regFrame_value]

/-- A register frame that decodes is the frame of the write it decodes to. -/
theorem decodeRegisterFrame_ok {c : Config} {tx : TxWord} {i : Instr} (h : decodeRegisterFrame c tx = .ok i) :
    ∃ a v, regFrame a v = tx ∧ i = regWriteRow c a v := by
  unfold decodeRegisterFrame at h
  split at h
  · rename_i hfields
    obtain ⟨hhigh, hflag, hlow⟩ := hfields
    cases h
    exact ⟨_, _, regFrame_fields hhigh hflag hlow, rfl⟩
  · cases h

end Sys2Proof

namespace Sys2Proof.Machine

open Sys2Proof

/-! ## Host words -/

theorem encode_of_host (c : Config) {i : Instr} (h : (seqOpOf i).isSome = true) :
    encode c i = .host (hostWordOf i) ∧ i.wellFormed c = true := by
  cases i with
  | reset | powerOnAll | setRange | getRange | enterScan | readCh | scanAll | getCodes | toVoltage => exact ⟨rfl, rfl⟩
  | _ => cases h

/-! ## The round trips -/

/-- Settles O1: each row is read back at its own level; R11 keeps the rows of the wire apart. -/
theorem decodeOfEncodeIsTheInstruction : Obligations.DecodeOfEncodeIsTheInstruction := by
  intro c i hc hi
  obtain ⟨hnodup, hbase, hne, _, _⟩ := c.addressesOk_iff.mp hc
  have host : (seqOpOf i).isSome = true → decode c (encode c i) = .ok i := fun hhost => by
    rw [(encode_of_host c hhost).1]; exact decodeHost_hostWordOf hhost
  have select : ∀ n, decode c (encode c (.wManCh n)) = .ok (.wManCh n) := fun n => by
    rw [encode_wManCh]; exact decodeCommandFrame_opcManCh hnodup n
  have write : ∀ {a v j}, regWriteRow c a v = j → decode c (.frame .w24 (regFrame a v)) = .ok j := fun hrow =>
    hrow ▸ decodeRegisterFrame_regFrame c _ _
  have range : ∀ n v, decode c (encode c (.wWrRange n v)) = .ok (.wWrRange n v) := fun n v => by
    rw [encode_wWrRange]; exact write (regWriteRow_rangeReg hc n v)
  cases i with
  | reset | powerOnAll | setRange | getRange | enterScan | readCh | scanAll | getCodes | toVoltage =>
    exact host rfl
  | transact wsel payload => exact decodeRequest_transact wsel payload
  | writeReg a v => exact decodeRequest_writeReg a v
  | wNoOp => exact decodeCommandFrame_opcNoOp c
  | wRst => exact decodeCommandFrame_opcRst hnodup
  | wAutoRst => exact decodeCommandFrame_opcAutoRst hnodup
  | wManCh0 => exact select 0
  | wManCh1 => exact select 1
  | wManCh2 => exact select 2
  | wManCh3 => exact select 3
  | wManCh4 => exact select 4
  | wManCh5 => exact select 5
  | wManCh6 => exact select 6
  | wManCh7 => exact select 7
  | wWr a v => exact write (regWriteRow_wWr hbase hi)
  | wWrAutoSeqEn => exact write (regWriteRow_autoSeqEn c)
  | wWrChPwrDn => exact write (regWriteRow_chPwrDn hne)
  | wWrRange0 v => exact range 0 v
  | wWrRange1 v => exact range 1 v
  | wWrRange2 v => exact range 2 v
  | wWrRange3 v => exact range 3 v
  | wWrRange4 v => exact range 4 v
  | wWrRange5 v => exact range 5 v
  | wWrRange6 v => exact range 6 v
  | wWrRange7 v => exact range 7 v

/-- Settles O2: at each level the fields that the decoder reads, with the fixed ones, are the whole packet. -/
theorem encodeOfDecodeIsThePacket : Obligations.EncodeOfDecodeIsThePacket := by
  intro c p i h
  cases p with
  | host cw =>
    obtain ⟨rfl, hhost⟩ := decodeHost_ok h
    obtain ⟨hword, hwf⟩ := encode_of_host c hhost
    exact ⟨hword, fun _ => hwf⟩
  | request rq =>
    obtain ⟨hword, hwf⟩ := decodeRequest_ok c h
    exact ⟨hword, fun _ => hwf⟩
  | frame w tx =>
    cases w with
    | w16 => cases h
    | w24 =>
      obtain ⟨a, v, rfl, rfl⟩ := decodeRegisterFrame_ok h
      refine ⟨encode_regWriteRow c a v, fun hc => ?_⟩
      obtain ⟨_, hbase, _⟩ := c.addressesOk_iff.mp hc
      exact regWriteRow_wellFormed hbase a v
    | w32 =>
      obtain ⟨hframe, hwf⟩ := decodeCommandFrame_ok h
      exact ⟨hframe, fun _ => hwf⟩

/-- Settles O3: the words are closed terms, read by the decoder at the default parameters. -/
theorem tableWordsDecode : Obligations.TableWordsDecode :=
  ⟨rfl, rfl, rfl, rfl, rfl, rfl, rfl, rfl, rfl, rfl, rfl⟩

end Sys2Proof.Machine
end

section
/-! PROOFS. Words at the ports (R37, R38, R103, R104): which words decode to nothing, and a step as the run of the
packet at the head of the inbox. -/

namespace Sys2Proof.Machine

open Sys2Proof

/-! ## Illegal encodings (R103) -/

theorem formatN_error {cw : HostWord} {i : Instr} :
    (∃ e, formatN cw i = .error e) ↔ cw.extractLsb' 0 24 ≠ (0 : BitVec 24) := by
  unfold formatN; split <;> simp_all

theorem formatC_error {cw : HostWord} {mk : Byte → Instr} :
    (∃ e, formatC cw mk = .error e) ↔ cw.extractLsb' 0 16 ≠ (0 : BitVec 16) := by
  unfold formatC; split <;> simp_all

theorem formatCR_error {cw : HostWord} {mk : Byte → Byte → Instr} :
    (∃ e, formatCR cw mk = .error e) ↔ cw.extractLsb' 0 8 ≠ (0 : BitVec 8) := by
  unfold formatCR; split <;> simp_all

/-- The decoder rejects a host word exactly where R103 calls it illegal. -/
theorem decodeHost_error_iff (cw : HostWord) : (∃ e, decodeHost cw = .error e) ↔ illegalEncoding cw := by
  unfold decodeHost illegalEncoding
  split
  · rename_i hres
    simp only [hres, ne_eq, not_true_eq_false, false_or]
    split
    case h_3 hop => rw [formatCR_error]; simp [hop]
    case h_4 hop => rw [formatC_error]; simp [hop]
    case h_6 hop => rw [formatC_error]; simp [hop]
    case h_9 hop => simp [formatV, hop]
    case h_10 =>
      simp only [imp_false] at *
      have hop : (cw.extractLsb' 28 4).toNat = 0 ∨ 10 ≤ (cw.extractLsb' 28 4).toNat := by omega
      exact iff_of_true ⟨_, rfl⟩ (or_assoc.mp (.inl hop))
    all_goals
      rename_i hop
      rw [formatN_error]; simp [hop]
  · rename_i hres
    exact ⟨fun _ => .inr (.inr (.inl hres)), fun _ => ⟨_, rfl⟩⟩

/-! ## What a refused word leaves -/

theorem State.refuseP_eq (s : State) (cw : HostWord) :
    s.refuseP cw = s.answered cw 0 (Response.error .invalidArgument) [] := by
  simp only [State.refuseP, State.raise, State.acceptP, State.respondP, State.answered, State.emit, List.append_assoc,
    List.cons_append, List.nil_append]

theorem State.refuseC_eq (s : State) (cw : HostWord) :
    s.refuseC cw = { s with
      cResp := some (Response.error .invalidArgument),
      hist := s.hist ++ [.op .C cw, .resp .C (Response.error .invalidArgument)] } := by
  simp only [State.refuseC, State.respondC, State.emit, List.append_assoc, List.cons_append, List.nil_append]

/-- Port C refuses every operation but the two that it serves (R104). -/
theorem State.serveC_other {s : State} {cw : HostWord} {i : Instr} (h : decodeHost cw = .ok i) (hcodes : i ≠ .getCodes)
    (hvolts : ∀ code rg, i ≠ .toVoltage code rg) : s.serveC cw = s.refuseC cw := by
  unfold State.serveC
  split
  · rename_i hd; exact absurd (Except.ok.inj (h.symm.trans hd)) hcodes
  · rename_i hd; exact absurd (Except.ok.inj (h.symm.trans hd)) (hvolts _ _)
  · rfl

/-! ## A step takes the packet at the head of the inbox -/

theorem State.runWord_ok {s : State} {p : Port} {cw : HostWord} {i : Instr} (h : decodeHost cw = .ok i) :
    s.runWord p cw = exec i { s with port := p } := by
  unfold State.runWord; rw [h]

theorem State.runWord_illegal {s : State} {p : Port} {cw : HostWord} (h : illegalEncoding cw) :
    s.runWord p cw = .next (s.illegalWord p cw) := by
  obtain ⟨e, he⟩ := (decodeHost_error_iff cw).mpr h
  unfold State.runWord; rw [he]

section
variable {s : State} {l : List Input} (hwf : s.cfg.wf = true)
include hwf

/-- A word of port C runs whatever is in progress (R38, R79). -/
theorem step_eq_runWord_C {cw : HostWord} (hin : s.inbox = .portC cw :: l) :
    step s = { s.clearOutputs with inbox := l }.runWord .C cw := by
  rw [step_legal hwf]
  split
  · rw [State.stepBusy, State.clearOutputs_inbox, hin]
  · rw [State.stepFree, State.clearOutputs_inbox, hin]

theorem step_idle (hbusy : s.busy = false) : step s = s.clearOutputs.stepFree :=
  (step_legal hwf).trans (if_neg (Bool.eq_false_iff.mp hbusy))

theorem step_eq_runWord_P (hbusy : s.busy = false) {cw : HostWord} (hin : s.inbox = .portP cw :: l) :
    step s = { s.clearOutputs with inbox := l }.runWord .P cw := by
  rw [step_idle hwf hbusy, State.stepFree, State.clearOutputs_inbox, hin]

theorem step_eq_runRequest (hbusy : s.busy = false) {rq : RequestWord} (hin : s.inbox = .request rq :: l) :
    step s = { s.clearOutputs with inbox := l }.runRequest rq := by
  rw [step_idle hwf hbusy, State.stepFree, State.clearOutputs_inbox, hin]

theorem step_eq_runFrame (hbusy : s.busy = false) {w : Width} {tx : TxWord} (hin : s.inbox = .frame w tx :: l) :
    step s = { s.clearOutputs with inbox := l }.runFrame w tx := by
  rw [step_idle hwf hbusy, State.stepFree, State.clearOutputs_inbox, hin]

end

/-! ## The obligations -/

/-- Settles O4: a word that the decoder rejects is refused on the port that presents it. -/
theorem illegalWordsAreAnswered : Obligations.IllegalWordsAreAnswered := by
  refine ⟨decodeHost_error_iff, fun s cw l hwf hbusy hin hill => ?_, fun s cw l hwf hin hill => ?_⟩
  · rw [step_eq_runWord_P hwf hbusy hin, State.runWord_illegal hill]
    exact congrArg Host.Outcome.next (State.refuseP_eq _ cw)
  · rw [step_eq_runWord_C hwf hin, State.runWord_illegal hill]
    exact congrArg Host.Outcome.next (State.refuseC_eq _ cw)

/-- Settles O5: on port C the instruction runs as the port serves its word, which it refuses. -/
theorem portCRefusesOtherOperations : Obligations.PortCRefusesOtherOperations := by
  intro s cw i l hwf hin hd hcodes hvolts
  obtain ⟨rfl, hhost⟩ := decodeHost_ok hd
  rw [step_eq_runWord_C hwf hin, State.runWord_ok hd, exec_portC hhost rfl, State.serveC_other hd hcodes hvolts]
  exact congrArg Host.Outcome.next (State.refuseC_eq _ _)

/-- Settles O6: at each level the step runs the packet, and the packet decodes. -/
theorem stepRunsTheDecodedInstruction : Obligations.StepRunsTheDecodedInstruction := by
  refine ⟨fun s cw i l hwf hbusy hin hd => ?_, fun s cw i l hwf hin hd => ?_, fun s rq i l hwf hbusy hin hd => ?_,
    fun s w tx i l hwf hbusy hin hd => ?_⟩
  · rw [step_eq_runWord_P hwf hbusy hin, State.runWord_ok hd]
  · rw [step_eq_runWord_C hwf hin, State.runWord_ok hd]
  · rw [decode] at hd
    rw [step_eq_runRequest hwf hbusy hin, State.runRequest, hd]
  · rw [decode] at hd
    rw [step_eq_runFrame hwf hbusy hin, State.runFrame, State.clearOutputs_cfg, hd]

end Sys2Proof.Machine
end

section
/-! PROOFS. Requests that BUS answers whole (R131 to R138): what a bench's request leaves, for TRANSACT, WRITE_REG and
every wire frame, and what an illegal one leaves. -/

namespace Sys2Proof.Machine

open Sys2Proof

/-! ## The instructions as requests of FT -/

/-- A TRANSACT of a legal width is one request of that width (R107, R131). -/
theorem exec_transact {wsel : BitVec 2} {w : Width} (h : widthOfWsel wsel = some w) (payload : BitVec 32) (s : State) :
    exec (.transact wsel payload) s = .next (s.benchRequest .transact w payload) := by
  simp only [exec, execTransact, h]

theorem exec_transact_illegal (payload : BitVec 32) (s : State) :
    exec (.transact 3 payload) s = .next s.illegalRequest := rfl

theorem exec_writeReg (a : BitVec 7) (v : Byte) (s : State) :
    exec (.writeReg a v) s = .next (s.benchRequest .writeReg .w24 (regFrame a v)) := rfl

/-- A wire frame of the table runs as a bench's TRANSACT of its word (R130, R131). -/
theorem exec_wireFrame {i : Instr} {s : State} {w : Width} {tx : TxWord} (h : encode s.cfg i = .frame w tx) :
    exec i s = .next (s.benchRequest .transact w tx) := by
  cases i with
  | reset | powerOnAll | setRange | getRange | enterScan | readCh | scanAll | getCodes | toVoltage | transact
  | writeReg => cases h
  | _ => cases h; rfl

/-- The word of a wire frame of the table has no bits above its width (R108, R112). -/
theorem trunc_of_encode {c : Config} {i : Instr} {w : Width} {tx : TxWord} (h : encode c i = .frame w tx) :
    w.trunc tx = tx := by
  cases i with
  | reset | powerOnAll | setRange | getRange | enterScan | readCh | scanAll | getCodes | toVoltage | transact
  | writeReg => cases h
  | wNoOp | wRst | wAutoRst | wManCh0 | wManCh1 | wManCh2 | wManCh3 | wManCh4 | wManCh5 | wManCh6 | wManCh7 =>
    cases h; exact Width.trunc_w32 _
  | _ => cases h; exact Width.trunc_regFrame _ _

/-! ## What a request leaves that BUS answers whole -/

section
variable {s : State} {a : BusAnswer} {b : List BusAnswer} (hbus : s.busIn = a :: b)
include hbus

theorem State.benchRequest_eq_wireDone (kind : ReqKind) (w : Width) (tx : TxWord) {rx : BitVec 32}
    (hrx : a.word s.dev w = some rx) :
    s.benchRequest kind w tx = s.wireDone kind w tx rx b (s.dev.receive s.cfg w (w.trunc tx)) :=
  State.benchRequest_ok kind w tx hbus hrx

theorem State.benchRequest_eq_wireFaulted (kind : ReqKind) (w : Width) (tx : TxWord) (hfault : a.isFault = true) :
    s.benchRequest kind w tx = s.wireFaulted kind w tx a b :=
  State.benchRequest_fault kind w tx hbus hfault

end

/-! ## The obligations -/

/-- Settles O38: WSEL selects the width, and then the answer of BUS decides. -/
theorem transactExchangesOneFrame : Obligations.TransactExchangesOneFrame := by
  intro s wsel payload w a b hsel hbus
  have hwidth : widthOfWsel wsel = some w := by
    rcases hsel with ⟨rfl, rfl⟩ | ⟨rfl, rfl⟩ | ⟨rfl, rfl⟩ <;> rfl
  rw [exec_transact hwidth]
  refine ⟨fun rx hrx => ?_, ?_, ?_⟩
  · rw [State.benchRequest_eq_wireDone hbus _ _ _ hrx]; rfl
  · rintro rfl
    rw [State.benchRequest_eq_wireFaulted hbus _ _ _ rfl]; rfl
  · rintro rx bits acts rfl
    rw [State.benchRequest_eq_wireFaulted hbus _ _ _ rfl]
    cases acts <;> rfl

/-- Settles O40: a register frame has no bits above its width, so it is sent as it is. -/
theorem writeRegisterSendsOneFrame : Obligations.WriteRegisterSendsOneFrame := by
  intro s a v x b hbus
  rw [exec_writeReg]
  refine ⟨fun rx hrx => ?_, fun hfault => ?_⟩
  · rw [State.benchRequest_eq_wireDone hbus _ _ _ hrx, State.wireDone, Width.trunc_regFrame]; rfl
  · rw [State.benchRequest_eq_wireFaulted hbus _ _ _ hfault]

/-- Settles O44: the frame of the encoding is the request's. -/
theorem wireFramesGoOutAsEncoded : Obligations.WireFramesGoOutAsEncoded := by
  intro s i w tx a b hi hbus
  rw [exec_wireFrame hi]
  refine ⟨fun rx hrx => ?_, fun hfault => ?_⟩
  · rw [State.benchRequest_eq_wireDone hbus _ _ _ hrx, trunc_of_encode hi]
  · rw [State.benchRequest_eq_wireFaulted hbus _ _ _ hfault]

/-- A request that R107 calls illegal decodes to TRANSACT with WSEL = 11, or to nothing. -/
theorem State.runRequest_illegal {s : State} {rq : RequestWord}
    (h : (rq.extractLsb' 34 1 = (0 : BitVec 1) ∧ rq.extractLsb' 32 2 = (3 : BitVec 2)) ∨
      (rq.extractLsb' 34 1 = (1 : BitVec 1) ∧
        (rq.extractLsb' 32 2 ≠ (1 : BitVec 2) ∨ rq.extractLsb' 15 17 ≠ (0 : BitVec 17)))) :
    s.runRequest rq = .next s.illegalRequest := by
  unfold State.runRequest decodeRequest
  rcases h with ⟨hkind, hwsel⟩ | ⟨hkind, hbad⟩
  · rw [if_pos hkind, hwsel]
    exact exec_transact_illegal _ s
  · rw [if_neg (by rw [hkind]; decide), if_neg (not_and_or.mpr hbad)]

/-- Settles O39: the step takes the request, which is illegal. -/
theorem illegalRequestsTouchNothing : Obligations.IllegalRequestsTouchNothing := by
  refine ⟨fun s rq l hwf hbusy hin hill => ?_, fun s payload => exec_transact_illegal payload s⟩
  rw [step_eq_runRequest hwf hbusy hin, State.runRequest_illegal hill]
  rfl

end Sys2Proof.Machine
end

section
/-! PROOFS. A silent BUS (R137, R357): while a frame waits for its bits FT's step does nothing, so that a step of the
machine clears the outputs and serves the words of port C that are due. -/

namespace Sys2Proof.Machine

open Sys2Proof

/-! ## Runs of the machine -/

theorem core_run_succ {s t : State} (h : step s = .next t) (n : Nat) :
    Sys2Proof.core.run (n + 1) s = Sys2Proof.core.run n t := by
  have hcore : Sys2Proof.core.step s = .next t := h
  simp only [Host.Core.run, hcore]

/-! ## Words of port P wait -/

/-- While an operation or a frame is in progress and only words of port P wait, a step is the block's own (R37). -/
theorem step_eq_proceed {s : State} (hwf : s.cfg.wf = true) (hbusy : s.busy = true)
    (hin : ∀ x ∈ s.inbox, ∃ cw, x = .portP cw) : step s = s.clearOutputs.proceed := by
  have hhead : ∀ {x l}, s.inbox = x :: l → ∃ cw, x = .portP cw := fun h => hin _ (h ▸ List.mem_cons_self)
  rcases step_busy_cases hwf hbusy with ⟨cw, l, _, h, _⟩ | ⟨k, l, h, _⟩ | h
  · obtain ⟨_, he⟩ := hhead h; cases he
  · obtain ⟨_, he⟩ := hhead h; cases he
  · exact h

theorem State.proceed_shift {s : State} (h : s.ft.state = .shift) : s.proceed = .next (s.tick State.shiftStep) := by
  unfold State.proceed; rw [h]

/-! ## FT waiting for a bit -/

/-- A frame is in progress, its next bit is due, and BUS supplies none. -/
structure State.Starved (s : State) : Prop where
  shift : s.ft.state = .shift
  noErr : s.ft.err = false
  due : s.ft.bitcnt < s.ft.w.bits
  line : s.lineIn = []

theorem State.Starved.shiftStep {s : State} (h : s.Starved) : s.shiftStep = s := by
  have hend : ¬(s.ft.err || decide (s.ft.w.bits ≤ s.ft.bitcnt)) = true := by simp [h.noErr, h.due]
  rw [State.shiftStep, if_neg hend, h.line]

theorem State.Starved.popSlot {s : State} (h : s.Starved) (l : List Slot) : ({ s with slots := l } : State).Starved :=
  ⟨h.shift, h.noErr, h.due, h.line⟩

theorem State.Starved.serveAll {s : State} (h : s.Starved) (cws : List HostWord) : (s.serveAll cws).Starved := by
  obtain ⟨r, evs, lock, _, _, hs⟩ := State.serveAll_frame cws s
  rw [hs]
  exact ⟨h.shift, h.noErr, h.due, h.line⟩

/-- `s` after a step in which nothing happens but what the next slot holds: its words of port C are answered (R79). -/
def State.served (s : State) : State :=
  ({ s with slots := s.slots.drop 1 } : State).serveAll ((s.slots.take 1).flatMap Slot.words)

theorem State.served_nil {s : State} (h : s.slots = []) : s.served = s := by
  have hs : ({ s with slots := s.slots.drop 1 } : State) = s := by rw [h, List.drop_nil, ← h]
  rw [State.served, hs, h]; rfl

theorem State.served_cons {s : State} {x : Slot} {l : List Slot} (h : s.slots = x :: l) :
    s.served = ({ s with slots := l } : State).serveAll x.words := by
  rw [State.served, h, List.take_succ_cons, List.take_zero, List.flatMap_singleton]; rfl

theorem State.Starved.tick {s : State} (h : s.Starved) (hr : s.NoRst) : s.tick State.shiftStep = s.served := by
  rcases s.tick_cases State.shiftStep with ⟨hs, ht⟩ | ⟨l, hs, ht⟩ | ⟨cws, l, hs, ht⟩ | ⟨cws, l, hs, ht⟩ | ⟨k, l, hs, _⟩
  · rw [ht, State.served_nil hs, h.shiftStep]
  · rw [ht, State.served_cons hs, (h.popSlot l).shiftStep]; rfl
  · rw [ht, State.served_cons hs, ((h.popSlot l).serveAll cws).shiftStep]; rfl
  · rw [ht, State.served_cons hs, (h.popSlot l).shiftStep]; rfl
  · exact absurd (hs ▸ List.mem_cons_self) (hr k)

/-! ## A run under a silent BUS -/

/-- The block waits for a bit of a frame in progress, only words of port P wait, and no hardware reset is due. -/
structure State.Hangs (s : State) : Prop where
  wf : s.cfg.wf = true
  busy : s.busy = true
  starved : s.Starved
  lock : s.bufLock = .free
  noRst : s.NoRst
  waiting : ∀ x ∈ s.inbox, ∃ cw, x = .portP cw

/-- The hang depends on the owner's view and the slots alone. -/
theorem State.Hangs.of_view {s t : State} (h : s.Hangs) (hview : t.ownerView = s.clearOutputs.ownerView)
    (hr : t.NoRst) : t.Hangs := by
  have seen : ∀ {α : Type} (f : State → α), f t.ownerView = f s.clearOutputs.ownerView := fun f => congrArg f hview
  have hcfg : t.cfg = s.cfg := seen State.cfg
  have hbusy : t.busy = s.busy := seen State.busy
  have hft : t.ft = s.ft := seen State.ft
  have hline : t.lineIn = s.lineIn := seen State.lineIn
  have hlock : t.bufLock = s.bufLock := seen State.bufLock
  have hin : t.inbox = s.inbox := seen State.inbox
  obtain ⟨hshift, herr, hdue, hnone⟩ := h.starved
  exact ⟨hcfg ▸ h.wf, hbusy ▸ h.busy, ⟨hft ▸ hshift, hft ▸ herr, hft ▸ hdue, hline ▸ hnone⟩, hlock ▸ h.lock, hr,
    hin ▸ h.waiting⟩

/-- What the words of port C are answered depends on the owner's view alone. -/
theorem State.answersC_of_view {s t : State} (hview : t.ownerView = s.clearOutputs.ownerView) :
    t.answersC = s.answersC := by
  have ht : t.answersC = t.ownerView.answersC := rfl
  have hs : s.answersC = s.clearOutputs.ownerView.answersC := rfl
  rw [ht, hs, hview]

/-- What `n` steps leave of a state that hangs. -/
structure State.HungFor (n : Nat) (s t : State) : Prop where
  view : t.ownerView = s.clearOutputs.ownerView
  slots : t.slots = s.slots.drop n
  hist : t.hist = s.hist ++ (s.slots.take n).flatMap fun x => x.words.flatMap s.answersC

theorem State.Hangs.step {s : State} (h : s.Hangs) : ∃ t, step s = .next t ∧ State.HungFor 1 s t := by
  refine ⟨s.clearOutputs.served, ?_, ?_, State.serveAll_slots _ _, ?_⟩
  · obtain ⟨hshift, herr, hdue, hnone⟩ := h.starved
    have hstarved : s.clearOutputs.Starved := ⟨hshift, herr, hdue, hnone⟩
    rw [step_eq_proceed h.wf h.busy h.waiting, State.proceed_shift (s := s.clearOutputs) hshift,
      hstarved.tick h.noRst]
  · exact State.serveAll_ownerView (s := { s.clearOutputs with slots := s.slots.drop 1 }) _ h.lock
  · rw [State.served, State.serveAll_hist, List.flatMap_assoc]; rfl

theorem State.HungFor.hangs {n : Nat} {s t : State} (h : State.HungFor n s t) (hs : s.Hangs) : t.Hangs :=
  hs.of_view h.view fun k hk => hs.noRst k (List.mem_of_mem_drop (h.slots ▸ hk))

theorem State.HungFor.trans {n : Nat} {s t u : State} (h : State.HungFor 1 s t) (h' : State.HungFor n t u) :
    State.HungFor (n + 1) s u where
  view := by
    have ht : t.clearOutputs.ownerView = t.ownerView.clearOutputs := rfl
    rw [h'.view, ht, h.view]; rfl
  slots := by rw [h'.slots, h.slots, List.drop_drop, Nat.add_comm]
  hist := by
    rw [h'.hist, h.hist, State.answersC_of_view h.view, h.slots, List.append_assoc, ← List.flatMap_append,
      ← List.take_add, Nat.add_comm]

theorem State.Hangs.run (n : Nat) {s : State} (h : s.Hangs) :
    ∃ t, Sys2Proof.core.run (n + 1) s = .next t ∧ State.HungFor (n + 1) s t := by
  induction n generalizing s with
  | zero =>
    obtain ⟨t, ht, hung⟩ := h.step
    exact ⟨t, core_run_succ ht 0, hung⟩
  | succ n ih =>
    obtain ⟨t, ht, hung⟩ := h.step
    obtain ⟨u, hu, hung'⟩ := ih (hung.hangs h)
    exact ⟨u, (core_run_succ ht (n + 1)).trans hu, hung.trans hung'⟩

/-- Settles O43: the starved frame keeps the block as the owner sees it, and port C is served in every step. -/
theorem silentBusHangsPortP : Obligations.SilentBusHangsPortP := by
  intro s n hwf hbusy hshift herr hlock hrst hdue hnone hin
  have h : s.Hangs := ⟨hwf, hbusy, ⟨hshift, herr, hdue, hnone⟩, hlock, hrst, hin⟩
  obtain ⟨t, ht, hung⟩ := h.run n
  have hready : t.pReady = false := congrArg not (hung.hangs h).busy
  exact ⟨t, ht, hung.view, hready, hung.slots, hung.hist⟩

end Sys2Proof.Machine
end

section
/-! PROOFS. The bit-level engine alone (R141 to R146): from its acceptance a frame is taken sample by sample, then
settles, and its last step gives the state and the reply of the request that BUS answers whole (R147). -/

namespace Sys2Proof

/-! ## The bits received so far (R63, R64) -/

theorem Width.firstBits_getLsbD (w : Width) (n : Nat) (x : BitVec 32) (i : Nat) :
    (w.firstBits n x).getLsbD i = (decide (w.bits - n ≤ i) && decide (i < w.bits) && x.getLsbD i) := by
  have hw := w.bits_le
  rw [Width.firstBits, BitVec.getLsbD_shiftLeft, BitVec.getLsbD_ushiftRight, Width.trunc_getLsbD]
  by_cases hlo : w.bits - n ≤ i
  · by_cases hhi : i < w.bits
    · have h32 : i < 32 := by omega
      simp [hlo, hhi, h32, Nat.add_sub_cancel' hlo]
    · simp [hhi, Nat.add_sub_cancel' hlo]
  · simp [hlo, Nat.lt_of_not_le hlo]

theorem Width.firstBits_zero (w : Width) (x : BitVec 32) : w.firstBits 0 x = 0 := by
  apply BitVec.eq_of_getLsbD_eq
  intro i _
  rw [Width.firstBits_getLsbD]
  by_cases h : i < w.bits <;> simp [h]

theorem Width.firstBits_all (w : Width) (x : BitVec 32) : w.firstBits w.bits x = w.trunc x := by
  apply BitVec.eq_of_getLsbD_eq
  intro i _
  rw [Width.firstBits_getLsbD, Width.trunc_getLsbD]
  simp

/-- The next bit in wire order joins the bits received before it (R142). -/
theorem Width.firstBits_succ (w : Width) {n : Nat} (x : BitVec 32) (h : n < w.bits) :
    w.firstBits n x ||| (BitVec.ofBool (w.wireBit x n)).setWidth 32 <<< (w.bits - 1 - n) = w.firstBits (n + 1) x := by
  have hw := w.bits_le
  apply BitVec.eq_of_getLsbD_eq
  intro i hi
  rw [BitVec.getLsbD_or, Width.firstBits_getLsbD, Width.firstBits_getLsbD, BitVec.getLsbD_shiftLeft,
    BitVec.getLsbD_setWidth, BitVec.getLsbD_ofBool, Width.wireBit]
  rcases Nat.lt_trichotomy i (w.bits - 1 - n) with hlt | rfl | hgt
  · have h1 : ¬w.bits - n ≤ i := by omega
    have h2 : ¬w.bits - (n + 1) ≤ i := by omega
    simp [h1, h2, hlt]
  · have h1 : ¬w.bits - n ≤ w.bits - 1 - n := by omega
    have h2 : w.bits - (n + 1) ≤ w.bits - 1 - n := by omega
    have h3 : w.bits - 1 - n < w.bits := by omega
    simp [h1, h2, h3, hi]
  · have h1 : w.bits - n ≤ i := by omega
    have h2 : w.bits - (n + 1) ≤ i := by omega
    have h3 : i - (w.bits - 1 - n) ≠ 0 := by omega
    simp [h1, h2, h3]

end Sys2Proof

namespace Sys2Proof.Machine

open Sys2Proof

/-! ## Steps of the engine -/

/-- `t` is reached from `s` by `n` steps of the engine, before the last step of the frame: shift steps, and steps of
the settle count (R142 to R144). -/
inductive State.Engine : Nat → State → State → Prop
  | done (s : State) : Engine 0 s s
  | shift {n : Nat} {s t : State} (hst : s.ft.state = .shift) (h : Engine n s.shiftStep t) : Engine (n + 1) s t
  | settle {n : Nat} {s t : State} (hst : s.ft.state = .settle) (hcnt : 1 < s.ft.settleCnt)
      (h : Engine n s.settleTick t) : Engine (n + 1) s t

theorem State.Engine.trans {m n : Nat} {s t u : State} (h : State.Engine m s t) (h' : State.Engine n t u) :
    State.Engine (m + n) s u := by
  induction h with
  | done => rwa [Nat.zero_add]
  | shift hst _ ih => rw [Nat.add_right_comm]; exact .shift hst (ih h')
  | settle hst hcnt _ ih => rw [Nat.add_right_comm]; exact .settle hst hcnt (ih h')

theorem State.Engine.one {s t : State} (hst : s.ft.state = .shift) (h : s.shiftStep = t) : State.Engine 1 s t :=
  .shift hst (h ▸ .done _)

/-- The engine touches nothing but FT, DEV and the bits of BUS. -/
def State.EngineOnly (s t : State) : Prop := t = { s with ft := t.ft, dev := t.dev, lineIn := t.lineIn }

theorem State.shiftStep_engineOnly (s : State) : s.EngineOnly s.shiftStep := by
  rcases s.shiftStep_cases with h | ⟨_, _, _, _, _, h⟩ | ⟨_, _, _, h⟩ | ⟨_, h⟩ <;> rw [h]
  · rw [s.endShift_eq]; rfl
  · rfl
  · rfl
  · rfl

theorem State.EngineOnly.trans {s t u : State} (h : s.EngineOnly t) (h' : t.EngineOnly u) : s.EngineOnly u := by
  unfold State.EngineOnly at *
  rw [h', h]

theorem State.Engine.only {n : Nat} {s t : State} (h : State.Engine n s t) : s.EngineOnly t := by
  induction h with
  | done => rfl
  | shift _ _ ih => exact (State.shiftStep_engineOnly _).trans ih
  | settle _ _ _ ih => exact State.EngineOnly.trans (t := State.settleTick _) rfl ih

/-! ## The samples of a frame -/

/-- A frame in progress: the request, and the word that its bits are taken from. -/
structure Exchange where
  kind : ReqKind
  w    : Width
  tx   : TxWord
  rx   : BitVec 32

/-- `x` with the frame `f` accepted, its first `n` bits received, and the samples `l` to come (R141, R142). -/
def State.receiving (x : State) (f : Exchange) (n : Nat) (mosi err acts : Bool) (l : List LineSample) : State :=
  { x with
    lineIn := l
    ft := { x.ft.accept f.kind f.w f.tx with
      shRx := f.w.firstBits n f.rx, bitcnt := n, pulses := n, mosi := mosi, err := err, acts := acts } }

section
variable (x : State) (f : Exchange) {n : Nat} (mosi : Bool) (l : List LineSample)

theorem State.accept_eq_receiving :
    ({ x with lineIn := l, ft := x.ft.accept f.kind f.w f.tx } : State) =
      x.receiving f 0 x.ft.mosi false false l := by
  rw [State.receiving, Width.firstBits_zero]; rfl

/-- While bits are due a shift step looks at the next sample. -/
theorem State.receiving_goesOn (hn : n < f.w.bits) :
    ¬((x.receiving f n mosi false false l).ft.err ||
      decide ((x.receiving f n mosi false false l).ft.w.bits ≤ (x.receiving f n mosi false false l).ft.bitcnt)) =
        true := by
  show ¬(false || decide (f.w.bits ≤ n)) = true
  simp [hn]

theorem State.shiftStep_bit (hn : n < f.w.bits) (err acts : Bool) :
    (x.receiving f n mosi false false (.bit (f.w.wireBit f.rx n) err acts :: l)).shiftStep =
      x.receiving f (n + 1) (f.w.wireBit (f.w.trunc f.tx) n) err acts l := by
  rw [State.shiftStep, if_neg (x.receiving_goesOn f mosi _ hn), State.receiving, State.receiving,
    ← f.w.firstBits_succ f.rx hn]
  rfl

/-- A gap without error has no effect, whether it is allowed or dropped (R145, log 25). -/
theorem State.shiftStep_gap (hn : n < f.w.bits) :
    (x.receiving f n mosi false false (.gap false false :: l)).shiftStep = x.receiving f n mosi false false l := by
  rw [State.shiftStep, if_neg (x.receiving_goesOn f mosi _ hn)]
  show (if _ then _ else _) = _
  split <;> rfl

/-- An error in a gap between two bytes (R145). -/
theorem State.shiftStep_gapErr (hn : n < f.w.bits) (hk : x.straps.csImpl = .swGpioCs) (hpos : 0 < n) (hbyte : n % 8 = 0)
    (acts : Bool) :
    (x.receiving f n mosi false false (.gap true acts :: l)).shiftStep = x.receiving f n mosi true acts l := by
  have hgap : (x.receiving f n mosi false false (.gap true acts :: l)).gapAllowed = true := by
    show (x.straps.csImpl == .swGpioCs && decide (0 < n) && decide (n % 8 = 0)) = true
    simp [hk, hpos, hbyte]
  rw [State.shiftStep, if_neg (x.receiving_goesOn f mosi _ hn)]
  exact if_pos hgap

theorem State.engine_gaps (hn : n < f.w.bits) (gaps : Nat → Nat) :
    State.Engine (gapSamples gaps n).length (x.receiving f n mosi false false (gapSamples gaps n ++ l))
      (x.receiving f n mosi false false l) := by
  unfold gapSamples
  split
  · rw [List.length_replicate]
    induction gaps n with
    | zero => exact .done _
    | succ g ih => exact .shift rfl ((x.shiftStep_gap f mosi _ hn).symm ▸ ih)
  · exact .done _

/-- Bit by bit, with any gaps, the engine receives the first `n` bits of the word (R142, R145). -/
theorem State.engine_bits (gaps : Nat → Nat) :
    ∀ (n : Nat) (l : List LineSample), n ≤ f.w.bits → ∃ mosi',
      State.Engine (bitSamples f.w f.rx gaps n).length
        (x.receiving f 0 mosi false false (bitSamples f.w f.rx gaps n ++ l)) (x.receiving f n mosi' false false l)
  | 0, l, _ => ⟨mosi, .done _⟩
  | n + 1, l, hn => by
    have hsplit : bitSamples f.w f.rx gaps (n + 1) =
        bitSamples f.w f.rx gaps n ++ (gapSamples gaps n ++ [.bit (f.w.wireBit f.rx n) false false]) := by
      simp only [bitSamples, List.range_succ, List.flatMap_append, List.flatMap_singleton]
    obtain ⟨mosi', hbits⟩ := State.engine_bits gaps n
      (gapSamples gaps n ++ .bit (f.w.wireBit f.rx n) false false :: l) (Nat.le_of_lt hn)
    refine ⟨f.w.wireBit (f.w.trunc f.tx) n, ?_⟩
    rw [hsplit, List.length_append, List.length_append, List.append_assoc, List.append_assoc]
    exact hbits.trans ((x.engine_gaps f mosi' _ hn gaps).trans (.one rfl (x.shiftStep_bit f mosi' l hn false false)))

end

/-! ## The end of a frame -/

/-- The settle delay but for its last step, which it does not change (R144). -/
theorem State.engine_settles {s : State} (hst : s.ft.state = .settle) :
    ∃ y, State.Engine (max 1 s.ft.settleCnt - 1) s y ∧ y.ft.state = .settle ∧ y.ft.settleCnt ≤ 1 ∧
      y.endSettle = s.endSettle := by
  generalize hc : s.ft.settleCnt = c
  induction c generalizing s with
  | zero => exact ⟨s, .done s, hst, by omega, rfl⟩
  | succ c ih =>
    rcases Nat.eq_zero_or_pos c with rfl | hpos
    · exact ⟨s, .done s, hst, hc.le, rfl⟩
    · have hcnt : s.settleTick.ft.settleCnt = c := by show s.ft.settleCnt - 1 = c; omega
      obtain ⟨y, hy, hend⟩ := ih (s := s.settleTick) hst hcnt
      have hsteps : max 1 (c + 1) - 1 = max 1 c - 1 + 1 := by omega
      exact ⟨y, hsteps ▸ .settle hst (by omega) hy, hend⟩

/-- How a frame ends of which `n` bits have been received: its outcome. -/
def Exchange.out (f : Exchange) (n : Nat) (err : Bool) : FrameOut :=
  if err then .fault else .rxOk (f.w.trunc (f.w.firstBits n f.rx))

/-- `x` after the frame `f`, ended after `n` pulses (R131, R136). -/
def State.exchanged (x : State) (f : Exchange) (n : Nat) (err acts : Bool) : State :=
  { x with
    ft := Ft.afterFrame f.kind f.w f.tx f.rx n
    dev := if err && !acts then x.dev else x.dev.receive x.cfg f.w (f.w.trunc f.tx)
    hist := x.hist ++ [.frame f.w (f.w.trunc f.tx) (f.out n err)] }

/-- Where an error is seen, or all bits are received, the engine ends the frame: one step, and the settle delay but
for its last step, which gives the reply (R143, R144). -/
theorem State.engine_ends {m n : Nat} {s x : State} {f : Exchange} {mosi err acts : Bool} {l : List LineSample}
    (h : State.Engine m s (x.receiving f n mosi err acts l)) (hend : err = true ∨ f.w.bits ≤ n) :
    ∃ y, State.Engine (m + max 1 x.cfg.settleTicks) s y ∧ y.ft.state = .settle ∧ y.ft.settleCnt ≤ 1 ∧
      y.endSettle = ({ x with lineIn := l }.exchanged f n err acts, replyOf f.kind (f.out n err)) := by
  have hover : ((x.receiving f n mosi err acts l).ft.err ||
      decide ((x.receiving f n mosi err acts l).ft.w.bits ≤ (x.receiving f n mosi err acts l).ft.bitcnt)) = true := by
    show (err || decide (f.w.bits ≤ n)) = true
    simpa using hend
  have hstep : (x.receiving f n mosi err acts l).shiftStep = (x.receiving f n mosi err acts l).endShift :=
    if_pos hover
  rw [State.endShift_eq] at hstep
  obtain ⟨y, hy, hst, hcnt, hend⟩ :=
    State.engine_settles (s := (x.receiving f n mosi err acts l).shiftStep) (by rw [hstep])
  have hticks : (x.receiving f n mosi err acts l).shiftStep.ft.settleCnt = x.cfg.settleTicks := by rw [hstep]; rfl
  have hsteps : m + max 1 x.cfg.settleTicks = m + (max 1 x.cfg.settleTicks - 1 + 1) := by omega
  rw [hticks] at hy
  refine ⟨y, hsteps ▸ h.trans (.shift rfl hy), hst, hcnt, ?_⟩
  rw [hend, hstep]
  rfl

/-! ## The engine against the whole transaction (R147) -/

/-- `s` with other answers and bits of BUS to come. -/
def State.withBus (s : State) (b : List BusAnswer) (l : List LineSample) : State := { s with busIn := b, lineIn := l }

/-- `s` with a frame begun: the request is accepted by the bit-level engine (R141). -/
def State.begun (s : State) (kind : ReqKind) (w : Width) (tx : TxWord) : State :=
  { s with ft := s.ft.accept kind w tx }

/-- From the acceptance of any frame of width `w` the engine takes the samples and settles, and its last step gives
what the request gives that BUS answers by `whole`. -/
def EngineEnds (k : CsImpl) (w : Width) (whole : BusAnswer) (samples : List LineSample) : Prop :=
  ∀ (x : State) (kind : ReqKind) (tx : TxWord) (b : List BusAnswer) (rest : List LineSample), x.straps.csImpl = k →
    ∃ y, State.Engine (samples.length + max 1 x.cfg.settleTicks)
        ((x.begun kind w tx).withBus b (samples ++ rest)) y ∧
      y.ft.state = .settle ∧ y.ft.settleCnt ≤ 1 ∧
      (x.withBus (whole :: b) rest).request kind w tx = (y.endSettle.1, some y.endSettle.2)

theorem engineEnds_wireSamples (k : CsImpl) (w : Width) (rx : BitVec 32) (gaps : Nat → Nat) :
    EngineEnds k w (.answer rx) (wireSamples w rx gaps) := by
  intro x kind tx b rest _
  let f : Exchange := ⟨kind, w, tx, rx⟩
  obtain ⟨mosi, hbits⟩ := (x.withBus b rest).engine_bits f (x.withBus b rest).ft.mosi gaps w.bits rest (Nat.le_refl _)
  rw [← State.accept_eq_receiving] at hbits
  obtain ⟨y, hy, hst, hcnt, hend⟩ := State.engine_ends hbits (.inr (Nat.le_refl _))
  refine ⟨y, hy, hst, hcnt, ?_⟩
  have hout : f.out w.bits false = .rxOk (w.trunc rx) := by
    show FrameOut.rxOk (w.trunc (w.firstBits w.bits rx)) = _
    rw [Width.firstBits_all, Width.trunc_trunc]
  rw [hend, State.exchanged, hout]
  rfl

/-- A frame in which the engine sees an error once `n + 1` pulses are made. -/
theorem engineEnds_of_error {k : CsImpl} {w : Width} {rx : BitVec 32} {n : Nat} {acts : Bool}
    {samples : List LineSample} (hn : n < w.bits)
    (h : ∀ (x : State) (f : Exchange) (rest : List LineSample), f.w = w → f.rx = rx → x.straps.csImpl = k →
      ∃ mosi, State.Engine samples.length (x.receiving f 0 x.ft.mosi false false (samples ++ rest))
        (x.receiving f (n + 1) mosi true acts rest)) :
    EngineEnds k w (.fault rx n acts) samples := by
  intro x kind tx b rest hk
  let f : Exchange := ⟨kind, w, tx, rx⟩
  obtain ⟨mosi, hbits⟩ := h (x.withBus b rest) f rest rfl rfl hk
  rw [← State.accept_eq_receiving] at hbits
  obtain ⟨y, hy, hst, hcnt, hend⟩ := State.engine_ends hbits (.inl rfl)
  refine ⟨y, hy, hst, hcnt, ?_⟩
  have hpulses : w.errorStep n + 1 = n + 1 := by unfold Width.errorStep; omega
  rw [hend, State.request_fault kind w tx (a := .fault rx n acts) rfl rfl, BusAnswer.ftAfterFault, hpulses]
  cases acts <;> rfl

theorem engineEnds_faultSamples (k : CsImpl) (w : Width) (rx : BitVec 32) (gaps : Nat → Nat) {n : Nat} (acts : Bool)
    (hn : n < w.bits) : EngineEnds k w (.fault rx n acts) (faultSamples w rx gaps n acts) := by
  refine engineEnds_of_error hn fun x f rest hw hrx _ => ?_
  subst hw hrx
  obtain ⟨mosi, hbits⟩ := x.engine_bits f x.ft.mosi gaps n
    (gapSamples gaps n ++ .bit (f.w.wireBit f.rx n) true acts :: rest) (Nat.le_of_lt hn)
  refine ⟨f.w.wireBit (f.w.trunc f.tx) n, ?_⟩
  rw [faultSamples, List.append_assoc, List.length_append, List.length_append, List.append_assoc, List.append_assoc]
  exact hbits.trans ((x.engine_gaps f mosi _ hn gaps).trans (.one rfl (x.shiftStep_bit f mosi rest hn true acts)))

theorem engineEnds_gapFaultSamples (w : Width) (rx : BitVec 32) (gaps : Nat → Nat) {n : Nat} (acts : Bool)
    (hn : n < w.bits) (hpos : 0 < n) (hbyte : n % 8 = 0) :
    EngineEnds .swGpioCs w (.fault rx (n - 1) acts) (gapFaultSamples w rx gaps n acts) := by
  refine engineEnds_of_error (Nat.lt_of_le_of_lt (Nat.sub_le n 1) hn) fun x f rest hw hrx hk => ?_
  subst hw hrx
  obtain ⟨mosi, hbits⟩ := x.engine_bits f x.ft.mosi gaps n (gapSamples gaps n ++ .gap true acts :: rest)
    (Nat.le_of_lt hn)
  refine ⟨mosi, ?_⟩
  rw [gapFaultSamples, List.append_assoc, List.length_append, List.length_append, List.append_assoc, List.append_assoc,
    Nat.sub_add_cancel hpos]
  exact hbits.trans ((x.engine_gaps f mosi _ hn gaps).trans
    (.one rfl (x.shiftStep_gapErr f mosi rest hn hk hpos hbyte acts)))

end Sys2Proof.Machine
end

section
/-! PROOFS. The machine follows the engine (R20, R147): beside port C, a step of the machine while a frame is in
progress is a step of the engine, and the last one hands FT's reply on. From that, a bench's frame taken bit by bit is
over where the request is that BUS answers whole. -/

namespace Sys2Proof.Machine

open Sys2Proof

/-! ## What a step of the block reads -/

/-- What a step of the block reads of a state: the owner's view without the outputs of the step before. -/
def State.face (s : State) : State := s.clearOutputs.ownerView

theorem State.face_of_view {s t : State} (h : s.ownerView = t.ownerView) : s.face = t.face :=
  congrArg State.clearOutputs h

theorem State.face_ownerView (s : State) : s.face.ownerView = s.face := State.ownerView_ownerView _

theorem State.face_of_view_eq {t y : State} (h : t.ownerView = y.face) : t.face = y.face :=
  (State.face_of_view (h.trans y.face_ownerView.symm)).trans (congrArg State.clearOutputs y.face_ownerView)

theorem State.shiftStep_clearOutputs (s : State) : s.shiftStep.clearOutputs = s.clearOutputs.shiftStep := by
  have hft : s.clearOutputs.ft = s.ft := rfl
  unfold State.shiftStep
  rw [hft]
  split
  · rw [s.endShift_eq, s.clearOutputs.endShift_eq]; rfl
  · have hline : s.clearOutputs.lineIn = s.lineIn := rfl
    rw [hline]
    cases s.lineIn with
    | nil => rfl
    | cons x l =>
      cases x with
      | bit => rfl
      | gap => exact apply_ite State.clearOutputs _ _ _

theorem State.shiftStep_face (s : State) : s.shiftStep.face = s.face.shiftStep := by
  rw [State.face, State.shiftStep_clearOutputs, State.shiftStep_ownerView]; rfl

/-- An operation or a frame is in progress under legal parameters, the lock is free, and nothing waits at the ports. -/
structure State.Engaged (s : State) : Prop where
  wf : s.cfg.wf = true
  busy : s.busy = true
  lock : s.bufLock = .free
  inbox : s.inbox = []

theorem State.Engaged.of_face {s : State} (h : s.face.Engaged) : s.Engaged := ⟨h.wf, h.busy, h.lock, h.inbox⟩

theorem State.Engaged.face {s : State} (h : s.Engaged) : s.face.Engaged := ⟨h.wf, h.busy, h.lock, h.inbox⟩

theorem State.EngineOnly.engaged {s t : State} (h : s.EngineOnly t) (hs : s.Engaged) : t.Engaged := by
  rw [h]; exact ⟨hs.wf, hs.busy, hs.lock, hs.inbox⟩

/-! ## Steps of the machine beside steps of the engine -/

/-- To a step of the block `s` is as `x`, and no hardware reset is due. -/
structure State.Follows (s x : State) : Prop where
  noRst : s.NoRst
  face : s.face = x.face

theorem ownerOutcome_eq_next {o : Host.Outcome State Fault Refusal} {v : State} (h : ownerOutcome o = .next v) :
    ∃ t, o = .next t ∧ t.ownerView = v := by
  cases o with
  | next t => exact ⟨t, rfl, Host.Outcome.next.inj h⟩
  | fault r => cases h
  | refused r => cases h

section
variable {s x : State} (h : s.Follows x) (hx : x.Engaged)
include h hx

theorem State.Follows.step_view : ownerOutcome (step s) = ownerOutcome x.face.proceed := by
  have hs : s.Engaged := State.Engaged.of_face (h.face ▸ hx.face)
  have hwait : ∀ i ∈ s.inbox, ∃ cw, i = .portP cw := by rw [hs.inbox]; nofun
  rw [step_eq_proceed hs.wf hs.busy hwait, State.proceed_ownerView (s := s.clearOutputs) hs.lock h.noRst, ← h.face]
  rfl

/-- Where the block steps from `x` to `y`, the machine steps from `s` to a state that follows `y`. -/
theorem State.Follows.goesOn {y : State} (hy : x.face.proceed = .next y.face) :
    ∃ t, step s = .next t ∧ t.Follows y := by
  have hs : s.Engaged := State.Engaged.of_face (h.face ▸ hx.face)
  have hview := h.step_view hx
  rw [hy] at hview
  obtain ⟨t, ht, htv⟩ := ownerOutcome_eq_next hview
  refine ⟨t, ht, fun k hk => ?_, State.face_of_view_eq (htv.trans y.face_ownerView)⟩
  rcases step_next_cases ht with ⟨_, _, hin, _⟩ | hev
  · cases hs.inbox.symm.trans hin
  · exact h.noRst k (hev.slots.subset hk)

end

theorem State.proceed_shift_face {x : State} (hst : x.ft.state = .shift) :
    x.face.proceed = .next x.shiftStep.face := by
  rw [State.proceed_shift (s := x.face) hst, State.tick_nil _ rfl, State.shiftStep_face]

theorem State.proceed_settle {s : State} (hst : s.ft.state = .settle) : s.proceed = s.settleStep := by
  unfold State.proceed; rw [hst]

theorem State.proceed_settle_face {x : State} (hst : x.ft.state = .settle) (hcnt : 1 < x.ft.settleCnt) :
    x.face.proceed = .next x.settleTick.face := by
  have hgo : ¬x.face.ft.settleCnt ≤ 1 := Nat.not_le_of_lt hcnt
  rw [State.proceed_settle (s := x.face) hst, State.settleStep, if_neg hgo, State.tick_nil _ rfl]
  rfl

/-- The machine makes the steps of the engine, one by one. -/
theorem State.Engine.run {n : Nat} {x y : State} (h : State.Engine n x y) (hx : x.Engaged) {s : State}
    (hs : s.Follows x) : ∃ t, Sys2Proof.core.run n s = .next t ∧ t.Follows y := by
  induction h generalizing s with
  | done => exact ⟨s, rfl, hs⟩
  | shift hst _ ih =>
    obtain ⟨u, hu, hux⟩ := hs.goesOn hx (State.proceed_shift_face hst)
    obtain ⟨t, ht, hty⟩ := ih ((State.shiftStep_engineOnly _).engaged hx) hux
    exact ⟨t, (core_run_succ hu _).trans ht, hty⟩
  | settle hst hcnt _ ih =>
    obtain ⟨u, hu, hux⟩ := hs.goesOn hx (State.proceed_settle_face hst hcnt)
    obtain ⟨t, ht, hty⟩ := ih ⟨hx.wf, hx.busy, hx.lock, hx.inbox⟩ hux
    exact ⟨t, (core_run_succ hu _).trans ht, hty⟩

/-- The last step of a frame: to the owner, FT's reply is handed on, and the operation goes on if it is SEQ's. -/
theorem State.Follows.finishes {s y : State} (h : s.Follows y) (hy : y.Engaged) (hr : y.NoRst)
    (hst : y.ft.state = .settle) (hcnt : y.ft.settleCnt ≤ 1) (hwho : y.bench = true ∨ y.currentOp.isSome = true) :
    ownerOutcome (step s) = ownerOutcome y.clearOutputs.finishFrame.resume := by
  have hlock : y.clearOutputs.finishFrame.bufLock = .free := State.finishFrame_bufLock _ hy.lock
  have hslots : y.clearOutputs.finishFrame.NoRst := fun k hk =>
    hr k ((State.finishFrame_grows y.clearOutputs).slots ▸ hk)
  have hend : y.face.proceed = (y.face.tick State.finishFrame).resume := by
    rw [State.proceed_settle (s := y.face) hst, State.settleStep, if_pos (show y.face.ft.settleCnt ≤ 1 from hcnt)]
    exact if_pos hwho
  rw [h.step_view hy, hend, State.tick_nil _ rfl, State.resume_ownerView hlock hslots,
    State.finishFrame_ownerView]
  rfl

theorem core_run_then {m : Nat} {s t : State} (h : Sys2Proof.core.run m s = .next t) (n : Nat) :
    Sys2Proof.core.run (m + n) s = Sys2Proof.core.run n t := by
  induction m generalizing s with
  | zero => cases h; rw [Nat.zero_add]
  | succ m ih =>
    rw [Nat.add_right_comm]
    cases hs : step s with
    | next u =>
      rw [core_run_succ hs] at h ⊢
      exact ih h
    | fault r =>
      have hcore : Sys2Proof.core.step s = .fault r := hs
      simp only [Host.Core.run, hcore, reduceCtorEq] at h
    | refused r =>
      have hcore : Sys2Proof.core.step s = .refused r := hs
      simp only [Host.Core.run, hcore, reduceCtorEq] at h

/-! ## A bench's frame -/

/-- The first clause of `EngineMatches`: the frame of a bench. -/
def BenchMatches (k : CsImpl) (w : Width) (whole : BusAnswer) (samples : List LineSample) : Prop :=
  ∀ (s : State) (i : Instr) (b : List BusAnswer) (rest : List LineSample),
    s.cfg.wf = true → s.ft.state = .idle → s.busy = false → s.bufLock = .free → s.NoRst → s.inbox = [] →
    s.straps.csImpl = k → benchWidth s.cfg i = some w →
    s.busIn = .bitwise :: b → s.lineIn = samples ++ rest →
      ∃ s₁ t u, exec i s = .next s₁ ∧ exec i { s with busIn := whole :: b, lineIn := rest } = .next t ∧
        Sys2Proof.core.run (samples.length + 1 + max 1 s.cfg.settleTicks) s₁ = .next u ∧
        u.ownerView = { t with pResp := none }.ownerView

/-- An instruction with a width is a request of that width, and no operation of SEQ. -/
theorem benchFrame_of_width {c : Config} {i : Instr} {w : Width} (h : benchWidth c i = some w) :
    seqOpOf i = none ∧ ∃ kind tx, benchFrame c i = some (kind, w, tx) := by
  cases i with
  | reset | powerOnAll | setRange | getRange | enterScan | readCh | scanAll | getCodes | toVoltage => cases h
  | transact wsel payload => exact ⟨rfl, .transact, payload, congrArg (Option.map _) h⟩
  | _ => cases h; exact ⟨rfl, _, _, rfl⟩

/-- `s` with a bench in SEQ's place (log 19). -/
def State.asBench (s : State) : State := { s with busy := true, bench := true }

/-- `s` with the bench's frame over and its reply presented. -/
def State.benchDone (s : State) (r : FtReply) : State := { s with busy := false, bench := false, ftReply := some r }

/-- A request reads nothing of whose it is. -/
theorem State.request_asBench (s : State) (kind : ReqKind) (w : Width) (tx : TxWord) :
    s.asBench.request kind w tx = ((s.request kind w tx).1.asBench, (s.request kind w tx).2) := by
  have hbus : s.asBench.busIn = s.busIn := rfl
  unfold State.request
  rw [hbus]
  cases s.busIn with
  | nil => rfl
  | cons a b =>
    cases a with
    | fault rx bits acts => cases acts <;> rfl
    | _ => rfl

theorem State.benchRequest_begins {s : State} (kind : ReqKind) (w : Width) (tx : TxWord) {b : List BusAnswer}
    (h : s.busIn = .bitwise :: b) : s.benchRequest kind w tx = (s.asBench.begun kind w tx).withBus b s.lineIn :=
  State.benchRequest_bitwise kind w tx h

/-- What a bench's request leaves that BUS answers whole, where nothing else is in progress. -/
theorem State.benchRequest_done {s t : State} (kind : ReqKind) (w : Width) (tx : TxWord) {r : FtReply}
    (hbusy : s.busy = false) (h : s.asBench.request kind w tx = (t, some r)) :
    s.benchRequest kind w tx = t.benchDone r := by
  rw [State.request_asBench, Prod.mk.injEq] at h
  obtain ⟨rfl, hr⟩ := h
  have hb : (s.request kind w tx).1.busy = false := by
    rcases s.request_cases kind w tx with ⟨b, _, hreq⟩ | ⟨a, b, rx, _, _, hreq⟩ | ⟨a, b, _, _, hreq⟩ <;> rw [hreq] <;>
      exact hbusy
  have hreq : s.request kind w tx = ((s.request kind w tx).1, some r) := Prod.ext rfl hr
  unfold State.benchRequest State.benchDone
  rw [hreq]
  dsimp only [State.asBench]
  rw [← hb]

/-- The last step of a bench's frame ends it, and SEQ has nothing to go on with. -/
theorem State.finishFrame_resume_bench {s : State} (h : s.bench = true) :
    s.finishFrame.resume = .next (s.endSettle.1.benchDone s.endSettle.2) := by
  have hfinish : s.finishFrame = s.endSettle.1.benchDone s.endSettle.2 := if_pos h
  rw [hfinish]
  exact if_neg nofun

theorem EngineEnds.bench {k : CsImpl} {w : Width} {whole : BusAnswer} {samples : List LineSample}
    (h : EngineEnds k w whole samples) : BenchMatches k w whole samples := by
  intro s i b rest hwf _ hbusy hlock hrst hin hk hw hbus hline
  obtain ⟨hop, kind, tx, hframe⟩ := benchFrame_of_width hw
  obtain ⟨y, hengine, hst, hcnt, hwhole⟩ := h s.asBench kind tx b rest hk
  have hexec : ∀ u : State, u.cfg = s.cfg → exec i u = .next (u.benchRequest kind w tx) := fun u hu => by
    rw [exec_bench u hop, hu, hframe]; rfl
  have hbegin : exec i s = .next ((s.asBench.begun kind w tx).withBus b (samples ++ rest)) := by
    rw [hexec s rfl, State.benchRequest_begins kind w tx hbus, hline]
  have hatomic : exec i (s.withBus (whole :: b) rest) = .next (y.endSettle.1.benchDone y.endSettle.2) :=
    (hexec (s.withBus (whole :: b) rest) rfl).trans
      (congrArg Host.Outcome.next (State.benchRequest_done kind w tx hbusy hwhole))
  have hsame := hengine.only
  have hengaged : y.Engaged := hsame.engaged ⟨hwf, rfl, hlock, hin⟩
  have hbench : y.bench = true := by rw [hsame]; rfl
  have hyRst : y.NoRst := by rw [hsame]; exact hrst
  obtain ⟨v, hv, hvy⟩ := hengine.run ⟨hwf, rfl, hlock, hin⟩ (s := (s.asBench.begun kind w tx).withBus b _) ⟨hrst, rfl⟩
  have hlast := hvy.finishes hengaged hyRst hst hcnt (.inl hbench)
  rw [State.finishFrame_resume_bench (s := y.clearOutputs) hbench] at hlast
  obtain ⟨u, hu, huv⟩ := ownerOutcome_eq_next hlast
  refine ⟨_, _, u, hbegin, hatomic, ?_, huv.trans rfl⟩
  rw [Nat.add_right_comm]
  exact (core_run_then hv 1).trans (core_run_succ hu 0)

end Sys2Proof.Machine
end

section
/-! PROOFS. The operations of SEQ and the answers of BUS: a step reads them only by a request of FT, and SEQ goes from a
step to a later one, or has responded (R30, R165). So an operation does the same before a frame whatever comes after,
and the number of micro-steps of `SeqOp.run` is always enough. -/

namespace Sys2Proof.Machine

open Sys2Proof

/-! ## Where SEQ goes from a step -/

/-- SEQ has responded, or stands at a step past `k`, of `n` steps. -/
def State.Past (t : State) (k n : Nat) : Prop := t.busy = true → k < t.seqK ∧ t.seqK < n

theorem State.Past.ended {t : State} {k n : Nat} (h : t.busy = false := by rfl) : t.Past k n :=
  fun hb => nomatch h.symm.trans hb

theorem State.Past.goes {t : State} {k n : Nat} (j : Nat) (h : k < j ∧ j < n) (ht : t.seqK = j := by rfl) :
    t.Past k n :=
  fun _ => ht ▸ h

theorem State.Past.ite {k n : Nat} {s t : State} {p : Prop} [Decidable p] (hs : s.Past k n) (ht : t.Past k n) :
    (if p then s else t).Past k n := by
  split
  · exact hs
  · exact ht

theorem State.withBus_ite {p : Prop} [Decidable p] {s t s' t' : State} {b : List BusAnswer} {l : List LineSample}
    (hs : s' = s.withBus b l) (ht : t' = t.withBus b l) :
    (if p then s' else t') = (if p then s else t).withBus b l := by
  split
  · exact hs
  · exact ht

/-- Step `k` of `op`, whatever BUS supplies: SEQ goes on without a frame, or asks for one, AUTO_ARMED and SVALID having
been prepared, and goes on when it is over. -/
def SeqOp.GoesOn (op : SeqOp) (k : Nat) (s : State) (step : State → State × Option FtReply) : Prop :=
  (∃ t : State, (∀ b l, step (s.withBus b l) = noFrame (t.withBus b l)) ∧ t.Past k op.steps) ∨
    ∃ armed svalid kind w tx,
      (∀ b l, step (s.withBus b l) =
        (({ s with autoArmed := armed, svalid := svalid } : State).withBus b l).request kind w tx) ∧
      ∀ r t, (op.reply k r t).Past k op.steps

/-- The steps of `op` read what BUS supplies by requests alone, and go on to later steps. -/
structure SeqOp.Advances (op : SeqOp) : Prop where
  step : ∀ (k : Nat) (s : State), op.GoesOn k s (op.step k)
  reply : ∀ (k : Nat) (r : FtReply) (s : State) (b : List BusAnswer) (l : List LineSample),
    op.reply k r (s.withBus b l) = (op.reply k r s).withBus b l

section
variable {op : SeqOp} {k : Nat} {s : State} {step : State → State × Option FtReply}

theorem SeqOp.GoesOn.plain (ht : (step s).1.Past k op.steps)
    (h : ∀ b l, step (s.withBus b l) = noFrame ((step s).1.withBus b l) := by exact fun _ _ => rfl) :
    op.GoesOn k s step :=
  .inl ⟨_, h, ht⟩

theorem SeqOp.GoesOn.command (cmd : BitVec 16) (hreply : ∀ r t, (op.reply k r t).Past k op.steps)
    (armed : Bool := s.autoArmed) (svalid : BitVec 8 := s.svalid)
    (h : ∀ b l, step (s.withBus b l) =
      (({ s with autoArmed := armed, svalid := svalid } : State).withBus b l).command cmd
      := by exact fun _ _ => rfl) : op.GoesOn k s step :=
  .inr ⟨armed, svalid, _, _, _, h, hreply⟩

theorem SeqOp.GoesOn.regWrite (a : BitVec 7) (v : Byte) (hreply : ∀ r t, (op.reply k r t).Past k op.steps)
    (armed : Bool := s.autoArmed)
    (h : ∀ b l, step (s.withBus b l) =
      (({ s with autoArmed := armed, svalid := s.svalid } : State).withBus b l).regWrite a v
      := by exact fun _ _ => rfl) : op.GoesOn k s step :=
  .inr ⟨armed, s.svalid, _, _, _, h, hreply⟩

end

theorem SeqOp.GoesOn.congr {op : SeqOp} {k : Nat} {s : State} {f g : State → State × Option FtReply}
    (hg : op.GoesOn k s g) (h : ∀ b l, f (s.withBus b l) = g (s.withBus b l)) : op.GoesOn k s f :=
  hg.imp (fun ⟨t, ht, hpast⟩ => ⟨t, fun b l => (h b l).trans (ht b l), hpast⟩)
    fun ⟨armed, svalid, kind, w, tx, hreq, hpast⟩ =>
      ⟨armed, svalid, kind, w, tx, fun b l => (h b l).trans (hreq b l), hpast⟩

/-- An operation of one step that answers in it sends no frame. -/
theorem SeqOp.advances_of_answers {op : SeqOp} {f : State → State} (hstep : ∀ k s, op.step k s = noFrame (f s))
    (hbus : ∀ s b l, f (s.withBus b l) = (f s).withBus b l) (hended : ∀ s, (f s).busy = false)
    (hreply : ∀ k r s, op.reply k r s = s) : op.Advances where
  step k s := .inl ⟨f s, fun b l => (hstep k _).trans (congrArg noFrame (hbus s b l)), .ended (hended s)⟩
  reply _ _ _ _ _ := by rw [hreply, hreply]

/-! ## The configuration operations -/

theorem resetOp_advances : resetOp.Advances where
  step k s := by
    have hreply : ∀ k < 7, ∀ r t, (resetOp.reply k r t).Past k resetOp.steps := fun k hk r t =>
      .ite (.goes (k + 1) ⟨by omega, show k + 1 < 8 by omega⟩) (.goes 7 ⟨hk, by decide⟩)
    rcases k with _ | _ | _ | _ | _ | _ | _ | k
    · exact .plain (.goes 1 (by decide))
    · exact .plain (.goes 2 (by decide))
    · exact .plain (.goes 3 (by decide))
    · exact .command s.cfg.opcRst (hreply 3 (by decide))
    · exact .plain (.goes 5 (by decide))
    · exact .regWrite s.cfg.regChPwrDn pwrAllOn (hreply 5 (by decide))
    · exact .plain .ended
    · exact .plain .ended
  reply _ _ _ _ _ := State.withBus_ite rfl rfl

theorem powerOnAllOp_advances : powerOnAllOp.Advances where
  step k s := by
    rcases k with _ | _ | k
    · exact .plain (.goes 1 (by decide))
    · exact .regWrite s.cfg.regChPwrDn pwrAllOn fun r t => .ite (.goes 2 (by decide)) .ended
    · exact .plain .ended
  reply _ _ _ _ _ := State.withBus_ite rfl rfl

theorem illegalOperandOp_advances : illegalOperandOp.Advances :=
  SeqOp.advances_of_answers (fun _ _ => rfl) (fun _ _ _ => rfl) (fun _ => rfl) fun _ _ _ => rfl

theorem setRangeOp_advances (ch rg : Byte) : (setRangeOp ch rg).Advances := by
  unfold setRangeOp
  split
  · rename_i c _
    split
    · refine ⟨fun k s => ?_, fun _ _ _ _ _ => State.withBus_ite rfl rfl⟩
      rcases k with _ | _ | k
      · exact .plain (.goes 1 (show 0 < 1 ∧ 1 < 3 by decide))
      · exact .regWrite (s.cfg.rangeReg c) rg
          (fun r t => .ite (.goes 2 (show 1 < 2 ∧ 2 < 3 by decide)) .ended) false
      · exact .plain .ended
    · exact illegalOperandOp_advances
  · exact illegalOperandOp_advances

theorem getRangeOp_advances (ch : Byte) : (getRangeOp ch).Advances := by
  unfold getRangeOp
  split
  · exact SeqOp.advances_of_answers (fun _ _ => rfl) (fun _ _ _ => rfl) (fun _ => rfl) fun _ _ _ => rfl
  · exact illegalOperandOp_advances

theorem enterScanOp_advances : enterScanOp.Advances where
  step k s := by
    rcases k with _ | _ | _ | k
    · exact .plain (.ite .ended (.ite (.goes 3 (by decide)) (.goes 1 (by decide)))) fun _ _ =>
        congrArg noFrame (State.withBus_ite rfl (State.withBus_ite rfl rfl))
    · exact .regWrite s.cfg.regAutoSeqEn s.cfg.seqEnAll
        (fun r t => .ite (.goes 2 (by decide)) .ended) false
    · exact .command s.cfg.opcAutoRst fun r t => .ite (.goes 3 (by decide)) .ended
    · exact .plain .ended
  reply _ _ _ _ _ := State.withBus_ite (State.withBus_ite rfl rfl) rfl

/-! ## The read operations -/

theorem readChOp_advances (ch : Byte) : (readChOp ch).Advances := by
  unfold readChOp
  split
  · rename_i c _
    refine ⟨fun k s => ?_, fun _ _ _ _ _ => State.withBus_ite (State.withBus_ite rfl rfl) rfl⟩
    · rcases k with _ | _ | _ | _ | k
      · exact .plain (.ite (.goes 1 (show 0 < 1 ∧ 1 < 5 by decide)) .ended) fun _ _ =>
          congrArg noFrame (State.withBus_ite rfl rfl)
      · exact .command s.cfg.opcManCh[c]
          (fun r t => .ite (.goes 2 (show 1 < 2 ∧ 2 < 5 by decide)) (.goes 4 (show 1 < 4 ∧ 4 < 5 by decide)))
          false (clearFlag s.svalid c)
      · exact .command s.cfg.opcNoOp
          fun r t => .ite (.goes 3 (show 2 < 3 ∧ 3 < 5 by decide)) (.goes 4 (show 2 < 4 ∧ 4 < 5 by decide))
      · exact .plain .ended
      · exact .plain .ended
  · exact SeqOp.advances_of_answers
      (f := fun s => if s.drvState = .ready then s.raise .invalidArgument else s.raise .notInitialized)
      (fun _ _ => rfl) (fun _ _ _ => State.withBus_ite rfl rfl) (fun s => by split <;> rfl) fun _ _ _ => rfl

theorem getCodesOp_advances : getCodesOp.Advances :=
  SeqOp.advances_of_answers (fun _ _ => rfl) (fun _ _ _ => rfl) (fun _ => rfl) fun _ _ _ => rfl

theorem toVoltageOp_advances (code : Code) (rg : Byte) : (toVoltageOp code rg).Advances :=
  SeqOp.advances_of_answers (fun _ _ => rfl) (fun _ _ _ => rfl) (fun _ => rfl) fun _ _ _ => rfl

/-! ### SCAN_ALL -/

theorem scanStart_past (s : State) {n : Nat} (h : 1 < n) : (scanStart s).Past 0 n :=
  .ite (.goes 1 ⟨Nat.one_pos, h⟩) .ended

theorem scanStart_withBus (s : State) (b : List BusAnswer) (l : List LineSample) :
    scanStart (s.withBus b l) = (scanStart s).withBus b l := State.withBus_ite rfl rfl

theorem scanManualStep_select {k : Nat} (h : k < 8) (s : State) :
    scanManualStep (k + 1) s = s.command s.cfg.opcManCh[chanOf k] := by
  interval_cases k <;> rfl

theorem scanAutoStep_noOp {k : Nat} (h : 3 ≤ k ∧ k ≤ 8) (s : State) : scanAutoStep k s = s.command s.cfg.opcNoOp := by
  obtain ⟨hlo, hhi⟩ := h
  interval_cases k <;> rfl

theorem scanManualReply_past {k : Nat} (h : 1 ≤ k ∧ k ≤ 9) (r : FtReply) (t : State) :
    (scanManualReply k r t).Past k 12 := by
  refine .ite ?_ (.goes 11 (by omega))
  split
  · exact .goes 2 (by omega)
  · exact .goes (k + 1) (by omega)

theorem scanAutoReply_past {k : Nat} (h : 1 ≤ k ∧ k ≤ 9) (r : FtReply) (t : State) :
    (scanAutoReply k r t).Past k 12 := by
  refine .ite ?_ (.goes 11 (by omega))
  split
  · exact .goes 2 (by omega)
  · exact .ite (.goes 10 (by omega)) (.goes (k + 1) (by omega))

/-- A pass goes on from each of its frames, on a fault to its step F. -/
theorem scanAllOp_reply_past {k : Nat} (h : 1 ≤ k ∧ k ≤ 9) (r : FtReply) (t : State) :
    (scanAllOp.reply k r t).Past k scanAllOp.steps := by
  simp only [scanAllOp]
  split
  · exact scanManualReply_past h r t
  · exact scanAutoReply_past h r t

theorem scanManualStep_goesOn (k : Nat) (s : State) : scanAllOp.GoesOn k s (scanManualStep k) := by
  rcases Nat.lt_or_ge k 11 with hlt | hge
  · rcases k with _ | k
    · exact .plain (scanStart_past s (by decide)) fun b l => congrArg noFrame (scanStart_withBus s b l)
    · rcases Nat.lt_or_ge k 8 with hsel | hlast
      · exact .command s.cfg.opcManCh[chanOf k] (scanAllOp_reply_past (by omega)) (h := fun _ _ =>
          scanManualStep_select hsel _)
      · obtain rfl | rfl : k = 8 ∨ k = 9 := by omega
        · exact .command s.cfg.opcNoOp (scanAllOp_reply_past (by decide))
        · exact .plain .ended
  · obtain ⟨j, rfl⟩ := Nat.exists_eq_add_of_le' hge
    exact .plain .ended

theorem scanAutoStep_goesOn (k : Nat) (s : State) : scanAllOp.GoesOn k s (scanAutoStep k) := by
  rcases Nat.lt_or_ge k 11 with hlt | hge
  · rcases k with _ | _ | _ | k
    · exact .plain (scanStart_past s (by decide)) fun b l => congrArg noFrame (scanStart_withBus s b l)
    · by_cases ha : s.autoArmed = true
      · exact .inl ⟨s.goto 2, fun _ _ => if_pos ha, .goes 2 (by decide)⟩
      · exact .command s.cfg.opcAutoRst (scanAllOp_reply_past (by decide)) (h := fun _ _ => if_neg ha)
    · exact .command s.cfg.opcNoOp (scanAllOp_reply_past (by decide)) false
    · rcases Nat.lt_or_ge k 6 with hmid | hlast
      · exact .command s.cfg.opcNoOp (scanAllOp_reply_past (by omega)) (h := fun _ _ =>
          scanAutoStep_noOp (by omega) _)
      · obtain rfl | rfl : k = 6 ∨ k = 7 := by omega
        · exact .command s.cfg.opcAutoRst (scanAllOp_reply_past (by decide))
        · exact .plain .ended
  · obtain ⟨j, rfl⟩ := Nat.exists_eq_add_of_le' hge
    exact .plain .ended

theorem scanAllOp_advances : scanAllOp.Advances where
  step k s := by
    cases hstrategy : s.straps.strategy with
    | manual =>
      refine (scanManualStep_goesOn k s).congr fun b l => ?_
      have hbus : (s.withBus b l).straps.strategy = .manual := hstrategy
      simp only [scanAllOp, hbus]
    | autoSeq =>
      refine (scanAutoStep_goesOn k s).congr fun b l => ?_
      have hbus : (s.withBus b l).straps.strategy = .autoSeq := hstrategy
      simp only [scanAllOp, hbus]
  reply k r s b l := by
    have hbus : (s.withBus b l).straps = s.straps := rfl
    simp only [scanAllOp, hbus]
    cases s.straps.strategy with
    | manual => exact State.withBus_ite (State.withBus_ite rfl rfl) rfl
    | autoSeq => exact State.withBus_ite (State.withBus_ite rfl (State.withBus_ite rfl rfl)) rfl

/-! ## Every operation -/

theorem seqOpOf_advances {i : Instr} {op : SeqOp} (h : seqOpOf i = some op) : op.Advances := by
  cases i with
  | reset => exact SeqOp.of_some resetOp_advances h
  | powerOnAll => exact SeqOp.of_some powerOnAllOp_advances h
  | setRange ch rg => exact SeqOp.of_some (setRangeOp_advances ch rg) h
  | getRange ch => exact SeqOp.of_some (getRangeOp_advances ch) h
  | enterScan => exact SeqOp.of_some enterScanOp_advances h
  | readCh ch => exact SeqOp.of_some (readChOp_advances ch) h
  | scanAll => exact SeqOp.of_some scanAllOp_advances h
  | getCodes => exact SeqOp.of_some getCodesOp_advances h
  | toVoltage code rg => exact SeqOp.of_some (toVoltageOp_advances code rg) h
  | _ => exact absurd h (Option.some_ne_none op).symm

/-- The longest step list is SCAN_ALL's (R30). -/
theorem seqOpOf_steps_le {i : Instr} {op : SeqOp} (h : seqOpOf i = some op) : op.steps ≤ seqFuel := by
  have le : ∀ {n : Nat}, Nat.ble n 16 = true → n ≤ seqFuel := Nat.le_of_ble_eq_true
  have hset : ∀ ch rg, (setRangeOp ch rg).steps ≤ seqFuel := fun ch rg => by
    unfold setRangeOp
    split
    · split <;> exact le rfl
    · exact le rfl
  have hget : ∀ ch, (getRangeOp ch).steps ≤ seqFuel := fun ch => by unfold getRangeOp; split <;> exact le rfl
  have hread : ∀ ch, (readChOp ch).steps ≤ seqFuel := fun ch => by unfold readChOp; split <;> exact le rfl
  cases i with
  | setRange ch rg => exact SeqOp.of_some (P := (SeqOp.steps · ≤ seqFuel)) (hset ch rg) h
  | getRange ch => exact SeqOp.of_some (P := (SeqOp.steps · ≤ seqFuel)) (hget ch) h
  | readCh ch => exact SeqOp.of_some (P := (SeqOp.steps · ≤ seqFuel)) (hread ch) h
  | reset | powerOnAll | enterScan | scanAll | getCodes | toVoltage => cases h; exact le rfl
  | _ => cases h

/-! ## Micro-steps -/

section
variable {op : SeqOp} (h : op.Advances)
include h

/-- A micro-step ends past its step, or waits for FT. -/
theorem SeqOp.Advances.micro_past (s : State) :
    (op.micro s).Past s.seqK op.steps ∨ (op.micro s).ft.state = .shift := by
  unfold SeqOp.micro
  rcases h.step s.seqK s with ⟨t, ht, hpast⟩ | ⟨armed, svalid, kind, w, tx, hreq, hpast⟩
  · have hstep : op.step s.seqK s = noFrame (t.withBus s.busIn s.lineIn) := ht s.busIn s.lineIn
    rw [hstep]
    exact .inl hpast
  · have hstep : op.step s.seqK s = State.request { s with autoArmed := armed, svalid := svalid } kind w tx :=
      hreq s.busIn s.lineIn
    rw [hstep]
    rcases State.request_cases { s with autoArmed := armed, svalid := svalid } kind w tx with
      ⟨b, _, hr⟩ | ⟨a, b, rx, _, _, hr⟩ | ⟨a, b, _, _, hr⟩ <;> rw [hr]
    · exact .inr rfl
    · exact .inl (hpast _ _)
    · exact .inl (hpast _ _)

/-- With enough micro-steps to reach the end of the step list, their number does not matter. -/
theorem SeqOp.Advances.run_fuel (hk : op.KeepsSlots) :
    ∀ (n m : Nat) (s : State), s.slots = [] →
      (s.busy = true → s.seqK < op.steps ∧ op.steps ≤ s.seqK + n ∧ op.steps ≤ s.seqK + m) →
      op.run n s = op.run m s := by
  intro n
  induction n with
  | zero =>
    intro m s _ hfuel
    have hstop : ¬(s.busy = true ∧ s.ft.state = .idle) := fun hgo => by have := hfuel hgo.1; omega
    rw [op.run_stopped 0 hstop, op.run_stopped m hstop]
  | succ n ih =>
    intro m s hslots hfuel
    by_cases hgo : s.busy = true ∧ s.ft.state = .idle
    · obtain ⟨hin, hn, hm⟩ := hfuel hgo.1
      obtain ⟨m, rfl⟩ : ∃ m', m = m' + 1 := ⟨m - 1, by omega⟩
      rw [op.run_active n hgo.1 hgo.2, op.run_active m hgo.1 hgo.2, State.tick_nil _ hslots]
      rcases h.micro_past s with hpast | hwaits
      · refine ih m _ ((hk s).trans hslots) fun hb => ?_
        have := hpast hb
        omega
      · have hstop : ¬((op.micro s).busy = true ∧ (op.micro s).ft.state = .idle) := by simp [hwaits]
        rw [op.run_stopped n hstop, op.run_stopped m hstop]
    · rw [op.run_stopped _ hgo, op.run_stopped _ hgo]

end

end Sys2Proof.Machine
end

section
/-! PROOFS. The frames of SEQ taken bit by bit (R147): an operation asks for such a frame in a state that does not
depend on how BUS will take it, and goes on from the engine's last step as from the frame that BUS answers whole. -/

namespace Sys2Proof.Machine

open Sys2Proof

/-! ## An operation in progress, as the owner sees it -/

/-- The operation of `i` is in progress or has responded, with nothing of port C in the state. -/
structure State.Underway (c : Config) (k : CsImpl) (i : Instr) (s : State) : Prop where
  cfg : s.cfg = c
  csImpl : s.straps.csImpl = k
  lock : s.bufLock = .free
  inbox : s.inbox = []
  slots : s.slots = []
  bench : s.bench = false
  word : s.curCw = hostWordOf i
  cResp : s.cResp = none
  ftReply : s.ftReply = none
  pResp : s.busy = true → s.pResp = none

section
variable {c : Config} {k : CsImpl} {i : Instr} {s t : State}

theorem State.Underway.congr (h : s.Underway c k i) (cfg : t.cfg = s.cfg := by rfl)
    (straps : t.straps = s.straps := by rfl) (lock : t.bufLock = s.bufLock := by rfl)
    (inbox : t.inbox = s.inbox := by rfl) (slots : t.slots = s.slots := by rfl) (bench : t.bench = s.bench := by rfl)
    (word : t.curCw = s.curCw := by rfl) (cResp : t.cResp = s.cResp := by rfl)
    (ftReply : t.ftReply = s.ftReply := by rfl) (busy : t.busy = s.busy := by rfl)
    (pResp : t.pResp = s.pResp := by rfl) : t.Underway c k i :=
  ⟨cfg.trans h.cfg, straps ▸ h.csImpl, lock.trans h.lock, inbox.trans h.inbox, slots.trans h.slots,
    bench.trans h.bench, word.trans h.word, cResp.trans h.cResp, ftReply.trans h.ftReply,
    fun hb => pResp.trans (h.pResp (busy ▸ hb))⟩

theorem State.Underway.request (h : s.Underway c k i) (kind : ReqKind) (w : Width) (tx : TxWord) :
    (s.request kind w tx).1.Underway c k i := by
  rcases s.request_cases kind w tx with ⟨b, _, hr⟩ | ⟨a, b, rx, _, _, hr⟩ | ⟨a, b, _, _, hr⟩ <;> rw [hr] <;>
    exact h.congr

theorem State.Underway.seqWrites (h : s.Underway c k i) (hw : s.SeqWrites t) : t.Underway c k i := by
  induction hw with
  | refl => exact h
  | tail _ hw ih =>
    cases hw with
    | respond r =>
      exact ⟨ih.cfg, ih.csImpl, ih.lock, ih.inbox, ih.slots, ih.bench, ih.word, ih.cResp, ih.ftReply, nofun⟩
    | buffer code valid => exact ih.congr (lock := ih.lock.symm)
    | release => exact ih.congr (lock := ih.lock.symm)
    | request kind w tx => exact ih.request kind w tx
    | _ => exact ih.congr

theorem State.Underway.engineOnly (h : s.Underway c k i) (ht : s.EngineOnly t) : t.Underway c k i := by
  rw [ht]; exact h.congr

/-- The next step clears no output of an operation in progress. -/
theorem State.Underway.clearOutputs (h : s.Underway c k i) (hb : s.busy = true) : s.clearOutputs = s := by
  obtain ⟨hp, hc, hr⟩ : s.pResp = none ∧ s.cResp = none ∧ s.ftReply = none := ⟨h.pResp hb, h.cResp, h.ftReply⟩
  clear h hb
  cases s
  dsimp only at hp hc hr
  subst hp hc hr
  rfl

/-- SEQ's resumption runs the operation, or leaves it ended. -/
theorem State.Underway.resume {op : SeqOp} (h : s.Underway c k i) (hop : seqOpOf i = some op)
    (hin : s.busy = true → s.seqK < op.steps) : s.resume = .next (op.run seqFuel s) := by
  unfold State.resume
  split
  · rename_i hb
    rw [State.currentOp_iff.mpr ⟨i, h.word, hop, hin hb.1⟩]
  · rename_i hb
    rw [op.run_stopped]
    exact fun hgo => hb ⟨hgo.1, h.bench⟩

end

/-! ## The frame that is taken bit by bit -/

/-- What a request does with the answer at the head, whatever comes after it. -/
theorem State.request_head (u : State) (a : BusAnswer) (kind : ReqKind) (w : Width) (tx : TxWord) :
    ∃ (t : State) (o : Option FtReply), (∀ b l, (u.withBus (a :: b) l).request kind w tx = (t.withBus b l, o)) ∧
      (o = none → t.ft.state = .shift) := by
  refine ⟨((u.withBus [a] []).request kind w tx).1, ((u.withBus [a] []).request kind w tx).2, ?_⟩
  cases a with
  | bitwise => exact ⟨fun _ _ => rfl, fun _ => rfl⟩
  | fault rx bits acts => cases acts <;> exact ⟨fun _ _ => rfl, nofun⟩
  | _ => exact ⟨fun _ _ => rfl, nofun⟩

theorem SeqOp.micro_none {op : SeqOp} {s t : State} (h : op.step s.seqK s = (t, none)) : op.micro s = t := by
  unfold SeqOp.micro; rw [h]

theorem SeqOp.micro_some {op : SeqOp} {s t : State} {r : FtReply} (h : op.step s.seqK s = (t, some r)) :
    op.micro s = op.reply s.seqK r t := by
  unfold SeqOp.micro; rw [h]

/-- A micro-step before the answers `pre` are used up: it asks for a frame when none of them is left, or it does the
same whatever comes after them, and then waits for FT or has gone on. -/
theorem SeqOp.Advances.micro_before {op : SeqOp} (h : op.Advances) (s : State) (pre : List BusAnswer) :
    (pre = [] ∧ ∃ armed svalid kind w tx,
      (∀ c l, op.step s.seqK (s.withBus c l) =
        (({ s with autoArmed := armed, svalid := svalid } : State).withBus c l).request kind w tx) ∧
      ∀ r t, (op.reply s.seqK r t).Past s.seqK op.steps) ∨
    ∃ (t : State) (pre' : List BusAnswer), (∀ c l, op.micro (s.withBus (pre ++ c) l) = t.withBus (pre' ++ c) l) ∧
      (t.ft.state = .idle → t.Past s.seqK op.steps) := by
  rcases h.step s.seqK s with ⟨t, ht, hpast⟩ | ⟨armed, svalid, kind, w, tx, hreq, hpast⟩
  · exact .inr ⟨t, pre, fun c l => SeqOp.micro_none (s := s.withBus (pre ++ c) l) (ht _ _), fun _ => hpast⟩
  · cases pre with
    | nil => exact .inl ⟨rfl, armed, svalid, kind, w, tx, hreq, hpast⟩
    | cons a pre =>
      obtain ⟨t, o, ht, hwaits⟩ := State.request_head { s with autoArmed := armed, svalid := svalid } a kind w tx
      have hstep : ∀ c l, op.step s.seqK (s.withBus (a :: pre ++ c) l) = (t.withBus (pre ++ c) l, o) := fun c l =>
        (hreq _ l).trans (ht _ l)
      cases o with
      | none =>
        exact .inr ⟨t, pre, fun c l => SeqOp.micro_none (s := s.withBus (a :: pre ++ c) l) (hstep c l),
          fun hidle => nomatch (hwaits rfl).symm.trans hidle⟩
      | some r =>
        refine .inr ⟨op.reply s.seqK r t, pre, fun c l => ?_, fun _ => hpast r t⟩
        exact (SeqOp.micro_some (s := s.withBus (a :: pre ++ c) l) (hstep c l)).trans (h.reply _ _ _ _ _)

/-- Run from `s` for `n` micro-steps, `op` uses up the answers `pre`, then asks in `u` for the frame of the next answer;
`m` micro-steps are left after it. Where that answer is `bitwise` the run stops there, and where it is whole the run
goes on with its reply. -/
structure SeqOp.Asks (op : SeqOp) (b : List BusAnswer) (n : Nat) (s : State) (pre : List BusAnswer) (u : State)
    (kind : ReqKind) (w : Width) (tx : TxWord) (m : Nat) : Prop where
  busy : u.busy = true
  within : u.seqK < op.steps
  fuel : op.steps ≤ u.seqK + m + 1
  past : ∀ r t, (op.reply u.seqK r t).Past u.seqK op.steps
  begins : op.run n s = (u.begun kind w tx).withBus b s.lineIn
  whole : ∀ {a l t r}, (u.withBus (a :: b) l).request kind w tx = (t, some r) →
    op.run n (s.withBus (pre ++ a :: b) l) = op.run m (op.reply u.seqK r t)

section
variable {op : SeqOp} {b : List BusAnswer} {n : Nat} {s : State}
variable (hslots : s.slots = []) (hbusy : s.busy = true) (hidle : s.ft.state = .idle)
include hslots hbusy hidle

theorem SeqOp.run_withBus (b : List BusAnswer) (l : List LineSample) :
    op.run (n + 1) (s.withBus b l) = op.run n (op.micro (s.withBus b l)) := by
  rw [op.run_active (s := s.withBus b l) n hbusy hidle, State.tick_nil (s := s.withBus b l) _ hslots]

/-- The micro-step that asks for the frame. -/
theorem SeqOp.Asks.first {u : State} {kind : ReqKind} {w : Width} {tx : TxWord} (hbus : s.busIn = .bitwise :: b)
    (hreq : ∀ c l, op.step s.seqK (s.withBus c l) = (u.withBus c l).request kind w tx) (hb : u.busy = s.busy)
    (hk : u.seqK = s.seqK) (hpast : ∀ r t, (op.reply s.seqK r t).Past s.seqK op.steps)
    (within : s.seqK < op.steps) (fuel : op.steps ≤ s.seqK + n + 1) : op.Asks b (n + 1) s [] u kind w tx n where
  busy := hb.trans hbusy
  within := hk ▸ within
  fuel := hk ▸ fuel
  past := hk ▸ hpast
  begins := by
    have hwaits : op.step s.seqK s = ((u.begun kind w tx).withBus b s.lineIn, none) :=
      (hreq s.busIn s.lineIn).trans (State.request_bitwise (s := u.withBus s.busIn s.lineIn) kind w tx hbus)
    have hrun := SeqOp.run_withBus (op := op) (n := n) hslots hbusy hidle s.busIn s.lineIn
    refine (hrun.trans (congrArg _ (SeqOp.micro_none hwaits))).trans (op.run_stopped n fun hgo => ?_)
    cases hgo.2
  whole := by
    intro a l t r hr
    refine (SeqOp.run_withBus hslots hbusy hidle _ l).trans (congrArg _ ?_)
    exact hk ▸ SeqOp.micro_some (s := s.withBus (a :: b) l) ((hreq _ l).trans hr)

/-- A micro-step that does not come to the frame. -/
theorem SeqOp.Asks.later {t u : State} {pre pre' : List BusAnswer} {kind : ReqKind} {w : Width} {tx : TxWord} {m : Nat}
    (hbus : s.busIn = pre ++ .bitwise :: b)
    (hmicro : ∀ c l, op.micro (s.withBus (pre ++ c) l) = t.withBus (pre' ++ c) l)
    (h : op.Asks b n (op.micro s) pre' u kind w tx m) : op.Asks b (n + 1) s pre u kind w tx m where
  busy := h.busy
  within := h.within
  fuel := h.fuel
  past := h.past
  begins := by
    have hs : op.micro s = t.withBus (pre' ++ .bitwise :: b) s.lineIn := by
      rw [← hmicro, ← hbus]; rfl
    have hrun := SeqOp.run_withBus (op := op) (n := n) hslots hbusy hidle s.busIn s.lineIn
    have hline : (op.micro s).lineIn = s.lineIn := by rw [hs]; rfl
    exact (hrun.trans h.begins).trans (by rw [hline])
  whole hreq := by
    have hs : op.micro s = t.withBus (pre' ++ .bitwise :: b) s.lineIn := by
      rw [← hmicro, ← hbus]; rfl
    have hnext := h.whole hreq
    rw [hs] at hnext
    rw [SeqOp.run_withBus hslots hbusy hidle, hmicro]
    exact hnext

end

theorem append_cons_ne {pre b : List BusAnswer} {a : BusAnswer} : pre ++ a :: b ≠ b := fun h => by
  have hlen := congrArg List.length h
  simp only [List.length_append, List.length_cons] at hlen
  omega

/-- An operation that has used up `pre` and the answer `bitwise` has asked for the frame of that answer. -/
theorem SeqOp.asks {c : Config} {k : CsImpl} {i : Instr} {op : SeqOp} (hop : seqOpOf i = some op)
    {b : List BusAnswer} :
    ∀ (n : Nat) (s : State) (pre : List BusAnswer), s.Underway c k i →
      (s.busy = true → s.ft.state = .idle → s.seqK < op.steps ∧ op.steps ≤ s.seqK + n) →
      s.busIn = pre ++ .bitwise :: b → (op.run n s).busIn = b →
      ∃ u kind w tx m, op.Asks b n s pre u kind w tx m ∧ u.Underway c k i := by
  intro n
  induction n with
  | zero => exact fun s pre _ _ hbus hend => absurd (hbus.symm.trans hend) append_cons_ne
  | succ n ih =>
    intro s pre hs hfuel hbus hend
    by_cases hgo : s.busy = true ∧ s.ft.state = .idle
    · obtain ⟨hbusy, hidle⟩ := hgo
      obtain ⟨hin, hn⟩ := hfuel hbusy hidle
      have hrun := SeqOp.run_withBus (op := op) (n := n) hs.slots hbusy hidle s.busIn s.lineIn
      rcases (seqOpOf_advances hop).micro_before s pre with
        ⟨rfl, armed, svalid, kind, w, tx, hreq, hpast⟩ | ⟨t, pre', hmicro, hpast⟩
      · exact ⟨_, kind, w, tx, n, .first hs.slots hbusy hidle hbus hreq rfl rfl hpast hin (by omega), hs.congr⟩
      · have hnext : op.micro s = t.withBus (pre' ++ .bitwise :: b) s.lineIn := by rw [← hmicro, ← hbus]; rfl
        have hfuel' : (op.micro s).busy = true → (op.micro s).ft.state = .idle →
            (op.micro s).seqK < op.steps ∧ op.steps ≤ (op.micro s).seqK + n := fun hb hi => by
          rw [hnext] at hb hi ⊢
          obtain ⟨hlater, hin'⟩ : s.seqK < t.seqK ∧ t.seqK < op.steps := hpast hi hb
          exact ⟨hin', show op.steps ≤ t.seqK + n by omega⟩
        obtain ⟨u, kind, w, tx, m, hasks, hu⟩ := ih (op.micro s) pre' (hs.seqWrites ((seqOpOf_writes hop).micro s))
          hfuel' (by rw [hnext]; rfl) ((congrArg State.busIn hrun).symm.trans hend)
        exact ⟨u, kind, w, tx, m, hasks.later hs.slots hbusy hidle hbus hmicro, hu⟩
    · rw [op.run_stopped _ hgo] at hend
      exact absurd (hbus.symm.trans hend) append_cons_ne

/-! ## From the frame on -/

/-- The second clause of `EngineMatches`: a frame of an operation of SEQ. -/
def OperationMatches (k : CsImpl) (w : Width) (whole : BusAnswer) (samples : List LineSample) : Prop :=
  ∀ (s s₁ : State) (i : Instr) (pre b : List BusAnswer) (rest : List LineSample),
    s.cfg.wf = true → s.ft.state = .idle → s.busy = false → s.bench = false → s.bufLock = .free → s.NoRst →
    s.inbox = [] → s.pResp = none → s.ftReply = none → s.straps.csImpl = k →
    s.busIn = pre ++ .bitwise :: b → s.lineIn = samples ++ rest →
    exec i s = .next s₁ → s₁.bench = false → s₁.ft.state = .shift → s₁.ft.w = w → s₁.busIn = b →
      ∃ t u, exec i { s with busIn := pre ++ whole :: b, lineIn := rest } = .next t ∧
        Sys2Proof.core.run (samples.length + 1 + max 1 s.cfg.settleTicks) s₁ = .next u ∧
        u.ownerView = t.ownerView

/-- Only an operation of SEQ on port P leaves a frame in progress that is no bench's. -/
theorem operation_of_shift {i : Instr} {s s₁ : State} (hidle : s.ft.state = .idle) (hexec : exec i s = .next s₁)
    (hbench : s₁.bench = false) (hshift : s₁.ft.state = .shift) : ∃ op, seqOpOf i = some op ∧ s.port = .P := by
  cases hop : seqOpOf i with
  | none =>
    cases (exec_bench s hop).symm.trans hexec
    cases hf : benchFrame s.cfg i with
    | none =>
      rw [hf] at hshift
      cases hidle.symm.trans hshift
    | some f =>
      obtain ⟨kind, w, tx⟩ := f
      rw [hf, State.benchRun, State.benchRequest] at hshift hbench
      rcases s.request_cases kind w tx with ⟨b, _, h⟩ | ⟨a, b, rx, _, _, h⟩ | ⟨a, b, _, _, h⟩ <;>
        rw [h] at hshift hbench
      · cases hbench
      · cases hshift
      · cases a with
        | fault => cases hshift
        | _ => cases hidle.symm.trans hshift
  | some op =>
    cases hp : s.port with
    | P => exact ⟨op, rfl, rfl⟩
    | C =>
      cases (exec_portC (Option.isSome_of_eq_some hop) hp).symm.trans hexec
      obtain ⟨r, evs, _, h | h⟩ := s.serveC_frame (hostWordOf i) <;> rw [h] at hshift <;>
        cases hidle.symm.trans hshift

/-- The last step of a frame of SEQ finishes its micro-step, and the operation runs on (R20). -/
theorem State.Underway.finishes {c : Config} {k : CsImpl} {i : Instr} {y : State} {op : SeqOp} {m : Nat}
    (h : y.Underway c k i) (hb : y.busy = true) (hop : seqOpOf i = some op) (hin : y.seqK < op.steps)
    (hfuel : op.steps ≤ y.seqK + m + 1) (hpast : ∀ r t, (op.reply y.seqK r t).Past y.seqK op.steps) :
    y.clearOutputs.finishFrame.resume = .next (op.run m (op.reply y.seqK y.endSettle.2 y.endSettle.1)) := by
  have hcur : y.currentOp = some op := State.currentOp_iff.mpr ⟨i, h.word, hop, hin⟩
  have hfinish : y.finishFrame = op.reply y.seqK y.endSettle.2 y.endSettle.1 := by
    rcases y.finishFrame_cases with ⟨hbench, _⟩ | ⟨_, op', hop', hf⟩ | ⟨_, hnone, _⟩
    · cases h.bench.symm.trans hbench
    · cases hcur.symm.trans hop'
      exact hf
    · cases hcur.symm.trans hnone
  have hz : (op.reply y.seqK y.endSettle.2 y.endSettle.1).Underway c k i :=
    State.Underway.seqWrites (s := y.endSettle.1) h.congr ((seqOpOf_writes hop).reply _ _ _)
  have hle := seqOpOf_steps_le hop
  rw [h.clearOutputs hb, hfinish, hz.resume hop fun hb' => (hpast _ _ hb').2,
    (seqOpOf_advances hop).run_fuel (seqOpOf_blind hop).2.2 seqFuel m _ hz.slots fun hb' => ?_]
  have := hpast _ _ hb'
  omega

/-- From the frame that the engine takes the machine goes to where the operation goes from the frame answered whole. -/
theorem SeqOp.Asks.refined {c : Config} {k : CsImpl} {i : Instr} {op : SeqOp} {a u s₁ : State} {kind : ReqKind}
    {w : Width} {tx : TxWord} {b pre : List BusAnswer} {n m : Nat} {whole : BusAnswer} {samples rest : List LineSample}
    (h : op.Asks b n a pre u kind w tx m) (hu : u.Underway c k i) (hop : seqOpOf i = some op) (hwf : c.wf = true)
    (hengine : EngineEnds k w whole samples)
    (hs₁ : s₁.Follows ((u.begun kind w tx).withBus b (samples ++ rest))) :
    ∃ t r z, (u.withBus (whole :: b) rest).request kind w tx = (t, some r) ∧
      Sys2Proof.core.run (samples.length + 1 + max 1 c.settleTicks) s₁ = .next z ∧
      z.ownerView = (op.run m (op.reply u.seqK r t)).ownerView := by
  obtain ⟨y, hy, hst, hcnt, hwhole⟩ := hengine u kind tx b rest hu.csImpl
  have hx : ((u.begun kind w tx).withBus b (samples ++ rest)).Underway c k i := hu.congr
  have hxe : ((u.begun kind w tx).withBus b (samples ++ rest)).Engaged :=
    ⟨hx.cfg ▸ hwf, h.busy, hx.lock, hx.inbox⟩
  obtain ⟨v, hv, hvy⟩ := hy.run hxe hs₁
  have hsame := hy.only
  have hyu : y.Underway c k i := hx.engineOnly hsame
  have hye : y.Engaged := hsame.engaged hxe
  have hyk : y.seqK = u.seqK := by rw [hsame]; rfl
  have hcur : y.currentOp = some op := State.currentOp_iff.mpr ⟨i, hyu.word, hop, hyk ▸ h.within⟩
  have hyrst : y.NoRst := fun k' => by rw [hyu.slots]; nofun
  have hlast := hvy.finishes hye hyrst hst hcnt (.inr (Option.isSome_of_eq_some hcur))
  rw [hyu.finishes hye.busy hop (hyk ▸ h.within) (hyk ▸ h.fuel) (hyk ▸ h.past), hyk] at hlast
  obtain ⟨z, hz, hzv⟩ := ownerOutcome_eq_next hlast
  refine ⟨_, _, z, hwhole, ?_, hzv⟩
  rw [Nat.add_right_comm, ← hu.cfg]
  exact (core_run_then hv 1).trans (core_run_succ hz 0)

theorem EngineEnds.operation {k : CsImpl} {w : Width} {whole : BusAnswer} {samples : List LineSample}
    (h : EngineEnds k w whole samples) : OperationMatches k w whole samples := by
  intro s s₁ i pre b rest hwf hidle _ hbench hlock hrst hin hpresp hreply hk hbus hline hexec hbench₁ hshift hw hbus₁
  obtain ⟨op, hop, hport⟩ := operation_of_shift hidle hexec hbench₁ hshift
  have hrun : s₁ = op.run seqFuel (s.acceptP (hostWordOf i)) :=
    Host.Outcome.next.inj (hexec.symm.trans (exec_portP hop hport))
  -- What the owner sees of the run does not depend on port C.
  let a : State := (s.acceptP (hostWordOf i)).ownerView
  have ha : a.Underway s.cfg k i := ⟨rfl, hk, hlock, hin, rfl, hbench, rfl, rfl, hreply, fun _ => hpresp⟩
  have hview : s₁.ownerView = (op.run seqFuel a).ownerView :=
    hrun ▸ SeqOp.run_ownerView (s := s.acceptP (hostWordOf i)) hlock hrst hop seqFuel
  obtain ⟨u, kind, w', tx, m, hasks, hu⟩ := SeqOp.asks hop seqFuel a pre ha
    (fun _ _ => ⟨seqOpOf_steps_pos hop, (seqOpOf_steps_le hop).trans (Nat.le_add_left _ _)⟩) hbus
    ((congrArg State.busIn hview).symm.trans hbus₁)
  rw [hasks.begins, show a.lineIn = samples ++ rest from hline] at hview
  obtain rfl : w' = w := (congrArg (fun v : State => v.ft.w) hview).symm.trans hw
  have hfollows : s₁.Follows ((u.begun kind w' tx).withBus b (samples ++ rest)) := by
    refine ⟨fun k' hk' => ?_, State.face_of_view hview⟩
    rw [hrun] at hk'
    exact hrst k' (((seqOpOf_grows hop).run_evolves seqFuel (s.acceptP (hostWordOf i))).slots.subset hk')
  obtain ⟨t, r, z, hwhole, hz, hzv⟩ := hasks.refined hu hop hwf h hfollows
  -- The same operation with the frame answered whole.
  let s' : State := s.withBus (pre ++ whole :: b) rest
  refine ⟨_, z, exec_portP (s := s') hop hport, hz, hzv.trans ?_⟩
  rw [SeqOp.run_ownerView (s := s'.acceptP (hostWordOf i)) hlock hrst hop seqFuel, ← hasks.whole hwhole]
  rfl

/-! ## The obligations -/

theorem EngineEnds.engineMatches {k : CsImpl} {w : Width} {whole : BusAnswer} {samples : List LineSample}
    (h : EngineEnds k w whole samples) : EngineMatches k w whole samples := ⟨h.bench, h.operation⟩

/-- Settles O41: the engine receives the whole word. -/
theorem bitEngineRefinesTheTransaction : Obligations.BitEngineRefinesTheTransaction :=
  fun k w rx gaps _ => (engineEnds_wireSamples k w rx gaps).engineMatches

/-- Settles O42: the engine stops where it sees the error, at a bit or in a gap. -/
theorem bitEngineRefinesTheFault : Obligations.BitEngineRefinesTheFault := fun k w rx gaps _ acts hn =>
  ⟨fun _ => (engineEnds_faultSamples k w rx gaps acts hn).engineMatches,
    fun hpos hbyte => (engineEnds_gapFaultSamples w rx gaps acts hn hpos hbyte).engineMatches⟩

end Sys2Proof.Machine
end

section
/-! PROOFS. The run of an operation of port P where BUS answers its frames whole (R30, R162 to R165): as the owner sees
it, a path of micro-steps, each from an operation in progress (`State.within`) to the next, up to the response. -/

namespace Sys2Proof.Machine

open Sys2Proof

/-! ## An operation of port P, as the owner sees it -/

/-- A run without port C stays without port C. -/
theorem SeqOp.Blind.run_view {op : SeqOp} (h : op.Blind) (n : Nat) {v : State} (hv : v.ownerView = v) :
    (op.run n v).ownerView = op.run n v := by
  refine op.run_keeps (P := fun t => t.ownerView = t) (fun t ht _ _ => ?_) n v hv
  have hslots : t.slots = [] := (congrArg State.slots ht).symm
  rw [State.tick_nil _ hslots, h.micro, ht]

/-- What the statements on an operation of port P ask of its state: FT idle, the lock free, no hardware reset due. -/
structure State.Accepts (s : State) : Prop where
  port : s.port = .P
  idle : s.ft.state = .idle
  lock : s.bufLock = .free
  noRst : s.NoRst

/-- The owner sees the run that the operation makes without port C (R74, R79). -/
theorem State.Accepts.exec_view {s : State} (h : s.Accepts) {i : Instr} {op : SeqOp} (hop : seqOpOf i = some op) :
    ∃ t, exec i s = .next t ∧ t.ownerView = op.run seqFuel (s.ownerView.acceptP (hostWordOf i)) := by
  refine ⟨_, exec_portP hop h.port, ?_⟩
  have hview : (s.ownerView.acceptP (hostWordOf i)).ownerView = s.ownerView.acceptP (hostWordOf i) := by
    rw [State.acceptP_ownerView, State.ownerView_ownerView]
  rw [SeqOp.run_ownerView (s := s.acceptP (hostWordOf i)) h.lock h.noRst hop, State.acceptP_ownerView]
  exact (seqOpOf_blind hop).1.run_view seqFuel hview

/-! ## An operation in progress -/

/-- `v` with the word `cw` in progress at step `k`, having emitted `evs` since its acceptance (R162). -/
def State.within (v : State) (cw : HostWord) (k : Nat) (evs : List Event) : State :=
  { v with busy := true, curCw := cw, seqK := k, hist := v.hist ++ .op .P cw :: evs }

/-- `v` after a frame that BUS completed with `rx`, but for its event (R131). -/
def State.completed (v : State) (kind : ReqKind) (w : Width) (tx : TxWord) (rx : BitVec 32) (b : List BusAnswer) :
    State :=
  { v with busIn := b, ft := Ft.afterFrame kind w tx rx w.bits, dev := v.dev.receive v.cfg w tx }

/-- `v` after a frame that BUS refused or faulted with the answer `a`, but for its event (R133, R136). -/
def State.faulted (v : State) (kind : ReqKind) (w : Width) (tx : TxWord) (a : BusAnswer) (b : List BusAnswer) : State :=
  { v with busIn := b, ft := a.ftAfterFault v.ft kind w tx, dev := a.devAfterFault v.cfg v.dev w tx }

/-- `v` after a configuration operation faulted, but for its response (R163). -/
def State.unconfigured (v : State) : State := { v with drvState := .uninitialized, autoArmed := false }

section
variable (v : State) (cw : HostWord) (k : Nat) (evs : List Event)

theorem State.emit_within (e : Event) : (v.within cw k evs).emit e = v.within cw k (evs ++ [e]) := by
  simp [State.within, State.emit]

theorem State.respondP_within (r : Response) : (v.within cw k evs).respondP r = v.answered cw k r evs := by
  simp [State.within, State.respondP, State.emit, State.answered]

theorem State.raiseConfigFault_within :
    (v.within cw k evs).raiseConfigFault = v.unconfigured.answered cw k (Response.error .busFault) evs :=
  v.unconfigured.respondP_within cw k evs _

end

section
variable {v : State} {w : Width} {tx : TxWord} {a : BusAnswer} {b : List BusAnswer}
variable (htx : w.trunc tx = tx) (hbus : v.busIn = a :: b)
include htx hbus

theorem State.request_within_ok (cw : HostWord) (k : Nat) (evs : List Event) (kind : ReqKind) {rx : BitVec 32}
    (hrx : a.word v.dev w = some rx) :
    (v.within cw k evs).request kind w tx =
      ((v.completed kind w tx rx b).within cw k (evs ++ [.frame w tx (.rxOk (w.trunc rx))]),
        some (replyOf kind (.rxOk (w.trunc rx)))) := by
  rw [State.request_ok (s := v.within cw k evs) kind w tx hbus hrx, htx]
  simp [State.within, State.completed]

theorem State.request_within_fault (cw : HostWord) (k : Nat) (evs : List Event) (kind : ReqKind)
    (hfault : a.isFault = true) :
    (v.within cw k evs).request kind w tx =
      ((v.faulted kind w tx a b).within cw k (evs ++ [a.faultEvent w tx]), some (replyOf kind .fault)) := by
  rw [State.request_fault (s := v.within cw k evs) kind w tx hbus hfault, htx]
  simp [State.within, State.faulted]

end

/-! ## Paths of micro-steps -/

/-- The operation goes from `s` to `t` in `n` micro-steps. -/
def SeqOp.Leads (op : SeqOp) (n : Nat) (s t : State) : Prop := ∀ m, op.run (m + n) s = op.run m t

theorem SeqOp.Leads.trans {op : SeqOp} {m n : Nat} {s t u : State} (h : op.Leads m s t) (h' : op.Leads n t u) :
    op.Leads (n + m) s u :=
  fun j => (Nat.add_assoc j n m ▸ h (j + n)).trans (h' j)

/-- A path to the response is the run. -/
theorem SeqOp.Leads.ends {op : SeqOp} {n : Nat} {s t : State} (h : op.Leads n s t) (hn : n ≤ seqFuel := by decide)
    (hended : t.busy = false := by rfl) : op.run seqFuel s = t := by
  have hrun := h (seqFuel - n)
  rw [Nat.sub_add_cancel hn] at hrun
  exact hrun.trans (op.run_stopped _ (by simp [hended]))

/-- Nothing of port C is due, and FT is idle. -/
structure State.Calm (v : State) : Prop where
  slots : v.slots = []
  idle : v.ft.state = .idle

theorem State.Accepts.calm {s : State} (h : s.Accepts) : s.ownerView.Calm := ⟨rfl, h.idle⟩

theorem BusAnswer.ftAfterFault_idle {ft : Ft} (h : ft.state = .idle) (a : BusAnswer) (kind : ReqKind) (w : Width)
    (tx : TxWord) : (a.ftAfterFault ft kind w tx).state = .idle := by
  cases a with
  | fault => rfl
  | _ => exact h

namespace State.Calm

variable {op : SeqOp} {v : State} (h : v.Calm) {cw : HostWord} {k : Nat} {evs : List Event}
include h

theorem set {u : State} (slots : u.slots = v.slots := by rfl) (ft : u.ft = v.ft := by rfl) : u.Calm :=
  ⟨slots.trans h.slots, ft ▸ h.idle⟩

theorem completed (kind : ReqKind) (w : Width) (tx : TxWord) (rx : BitVec 32) (b : List BusAnswer) :
    (v.completed kind w tx rx b).Calm := ⟨h.slots, rfl⟩

theorem faulted (kind : ReqKind) (w : Width) (tx : TxWord) (a : BusAnswer) (b : List BusAnswer) :
    (v.faulted kind w tx a b).Calm := ⟨h.slots, a.ftAfterFault_idle h.idle kind w tx⟩

theorem leads_micro : op.Leads 1 (v.within cw k evs) (op.micro (v.within cw k evs)) := fun m => by
  rw [op.run_active m (s := v.within cw k evs) rfl h.idle, State.tick_nil (s := v.within cw k evs) _ h.slots]

/-- A step without a frame. -/
theorem goes {t : State} (hstep : op.step k (v.within cw k evs) = noFrame t) : op.Leads 1 (v.within cw k evs) t :=
  SeqOp.micro_none (s := v.within cw k evs) hstep ▸ h.leads_micro

/-- A step that responds. -/
theorem answers {u : State} {r : Response}
    (hstep : op.step k (v.within cw k evs) = noFrame ((u.within cw k evs).respondP r)) :
    op.Leads 1 (v.within cw k evs) (u.answered cw k r evs) :=
  u.respondP_within cw k evs r ▸ h.goes hstep

section
variable {u t : State} {kind : ReqKind} {w : Width} {tx : TxWord} {a : BusAnswer} {b : List BusAnswer}
variable (hstep : op.step k (v.within cw k evs) = (u.within cw k evs).request kind w tx)
variable (htx : w.trunc tx = tx) (hbus : u.busIn = a :: b)
include hstep htx hbus

/-- A step whose frame BUS completes. -/
theorem completes {rx : BitVec 32} (hrx : a.word u.dev w = some rx)
    (hreply : op.reply k (replyOf kind (.rxOk (w.trunc rx)))
      ((u.completed kind w tx rx b).within cw k (evs ++ [.frame w tx (.rxOk (w.trunc rx))])) = t) :
    op.Leads 1 (v.within cw k evs) t :=
  hreply ▸ SeqOp.micro_some (s := v.within cw k evs)
    (hstep.trans (State.request_within_ok htx hbus cw k evs kind hrx)) ▸ h.leads_micro

/-- A step whose frame BUS refuses or faults. -/
theorem faults (hfault : a.isFault = true)
    (hreply : op.reply k ⟨.busFault, 0⟩
      ((u.faulted kind w tx a b).within cw k (evs ++ [a.faultEvent w tx])) = t) :
    op.Leads 1 (v.within cw k evs) t :=
  hreply ▸ SeqOp.micro_some (s := v.within cw k evs)
    (hstep.trans (State.request_within_fault htx hbus cw k evs kind hfault)) ▸ h.leads_micro

/-- A step of a configuration operation whose frame faults, which ends it (R163, R312). -/
theorem raises (hfault : a.isFault = true) (hreply : ∀ s, op.reply k ⟨.busFault, 0⟩ s = s.raiseConfigFault) :
    op.Leads 1 (v.within cw k evs)
      ((u.faulted kind w tx a b).unconfigured.answered cw k (Response.error .busFault)
        (evs ++ [a.faultEvent w tx])) :=
  h.faults hstep htx hbus hfault ((hreply _).trans (State.raiseConfigFault_within _ _ _ _))

end

/-- A step whose command frame BUS completes. -/
theorem commands {u t : State} {cmd : BitVec 16} {a : BusAnswer} {b : List BusAnswer} {rx : BitVec 32}
    (hstep : op.step k (v.within cw k evs) = (u.within cw k evs).command cmd) (hbus : u.busIn = a :: b)
    (hrx : a.word u.dev .w32 = some rx)
    (hreply : op.reply k ⟨.ok, rx⟩ ((u.completed .transact .w32 (cmdFrame cmd) rx b).within cw k
      (evs ++ [.frame .w32 (cmdFrame cmd) (.rxOk rx)])) = t) :
    op.Leads 1 (v.within cw k evs) t :=
  h.completes hstep (Width.trunc_w32 _) hbus hrx (by rw [Width.trunc_w32]; exact hreply)

end State.Calm

/-! ## Frames that BUS completes -/

/-- The first of some frames is completed, and then the others. -/
theorem exchange_cons {c : Config} {d d' : Dev} {f : FrameReq} {fs : List FrameReq} {bs b : List BusAnswer}
    {rxs : List (BitVec 32)} (h : exchange c d (f :: fs) bs = some (rxs, d', b)) :
    ∃ a bs' rx rxs', bs = a :: bs' ∧ a.word d f.1 = some rx ∧
      exchange c (d.receive c f.1 f.2) fs bs' = some (rxs', d', b) ∧ rxs = rx :: rxs' := by
  cases bs with
  | nil => cases h
  | cons a bs =>
    simp only [exchange] at h
    split at h
    · cases h
    · rename_i rx hrx
      split at h
      · cases h
      · rename_i rxs' d₁ b₁ hrest
        cases h
        exact ⟨a, bs, rx, rxs', rfl, hrx, hrest, rfl⟩

/-- Two frames are completed, one by one. -/
theorem exchange_pair {c : Config} {d d' : Dev} {f g : FrameReq} {bs b : List BusAnswer} {rx₁ rx₂ : BitVec 32}
    (h : exchange c d [f, g] bs = some ([rx₁, rx₂], d', b)) :
    ∃ a₁ a₂, bs = a₁ :: a₂ :: b ∧ a₁.word d f.1 = some rx₁ ∧ a₂.word (d.receive c f.1 f.2) g.1 = some rx₂ ∧
      d' = (d.receive c f.1 f.2).receive c g.1 g.2 := by
  obtain ⟨a₁, bs, _, _, rfl, h₁, hrest, hrxs⟩ := exchange_cons h
  obtain ⟨a₂, _, _, _, rfl, h₂, hdone, rfl⟩ := exchange_cons hrest
  cases hrxs
  cases hdone
  exact ⟨a₁, a₂, rfl, h₁, h₂, rfl⟩

end Sys2Proof.Machine
end

section
/-! PROOFS. The configuration operations run their step lists (41_driver_init.md: R166, R171, R175, R179, R184). -/

namespace Sys2Proof.Machine

open Sys2Proof

/-! ## The command words -/

theorem hostWord_append (op : BitVec 4) (x : BitVec 8) (y : BitVec 16) :
    hostWord op (x ++ y) = op ++ (0 : BitVec 4) ++ x ++ y :=
  (BitVec.append_assoc (x₁ := op ++ (0 : BitVec 4)) (x₂ := x) (x₃ := y)).symm

theorem hostWordOf_setRange (ch rg : Byte) : hostWordOf (.setRange ch rg) = 0x30#8 ++ ch ++ rg ++ 0x00#8 :=
  calc hostWord 3 (ch ++ rg ++ 0#8)
    _ = hostWord 3 (ch ++ (rg ++ 0#8)) := congrArg (hostWord 3) BitVec.append_assoc
    _ = 0x30#8 ++ ch ++ (rg ++ 0#8) := hostWord_append 3 ch (rg ++ 0#8)
    _ = 0x30#8 ++ ch ++ rg ++ 0#8 := BitVec.append_assoc.symm

theorem hostWordOf_getRange (ch : Byte) : hostWordOf (.getRange ch) = 0x40#8 ++ ch ++ 0x0000#16 :=
  hostWord_append 4 ch 0

/-! ## Operands refused in step 0 (R305) -/

theorem setRangeOp_illegal {ch rg : Byte} (h : 7 < ch.toNat ∨ 6 < rg.toNat) : setRangeOp ch rg = illegalOperandOp := by
  unfold setRangeOp
  split
  · rename_i c hc
    have hrg : 6 < rg.toNat := h.resolve_left fun hch => by simp [chan?_none hch] at hc
    rw [if_neg (by simp [legalRange, hrg])]
  · rfl

theorem getRangeOp_illegal {ch : Byte} (h : 7 < ch.toNat) : getRangeOp ch = illegalOperandOp := by
  simp [getRangeOp, chan?_none h]

theorem State.Accepts.illegalOperand {s : State} (h : s.Accepts) {i : Instr} (hop : seqOpOf i = some illegalOperandOp) :
    ∃ t, exec i s = .next t ∧
      t.ownerView = s.ownerView.answered (hostWordOf i) 0 (Response.error .invalidArgument) [] := by
  obtain ⟨t, hexec, hview⟩ := h.exec_view hop
  have hanswer : illegalOperandOp.Leads 1 (s.ownerView.within (hostWordOf i) 0 []) _ :=
    h.calm.answers (u := s.ownerView) (r := Response.error .invalidArgument) rfl
  exact ⟨t, hexec, hview.trans hanswer.ends⟩

/-! ## A register frame in step 1, whose fault ends the operation (R163, R164) -/

/-- `v` with AUTO_ARMED cleared, as before every frame of a configuration operation (R164). -/
def State.disarmed (v : State) : State := { v with autoArmed := false }

/-- From `v` the operation accepts `cw`, and its step 1 writes `y` to register `x` of the ADC with AUTO_ARMED cleared:
the steps of POWER_ON_ALL, SET_RANGE and ENTER_SCAN up to their first reply. -/
structure SeqOp.WritesRegister (op : SeqOp) (x : BitVec 7) (y : Byte) (cw : HostWord) (v : State) : Prop where
  calm : v.Calm
  start : ∃ u : State, u.Calm ∧ op.Leads 1 (v.acceptP cw) (u.within cw 1 []) ∧
    op.step 1 (u.within cw 1 []) = (v.disarmed.within cw 1 []).regWrite x y
  onOk : ∀ r s, r.status = .ok → op.reply 1 r s = s.goto 2
  onFault : ∀ s, op.reply 1 ⟨.busFault, 0⟩ s = s.raiseConfigFault

namespace SeqOp.WritesRegister

variable {op : SeqOp} {x : BitVec 7} {y : Byte} {cw : HostWord} {v : State} (h : op.WritesRegister x y cw v)
variable {a : BusAnswer} {b : List BusAnswer} (hbus : v.busIn = a :: b)
include h hbus

theorem completes {rx : BitVec 32} (hrx : a.word v.dev .w24 = some rx) :
    op.Leads 2 (v.acceptP cw)
      ((v.disarmed.completed .writeReg .w24 (regFrame x y) rx b).within cw 2
        [.frame .w24 (regFrame x y) (.rxOk (Width.w24.trunc rx))]) := by
  obtain ⟨u, hu, hstart, hstep⟩ := h.start
  exact hstart.trans (hu.completes hstep (Width.trunc_regFrame _ _) hbus hrx (h.onOk _ _ rfl))

theorem faults (hfault : a.isFault = true) :
    op.run seqFuel (v.acceptP cw) =
      (v.faulted .writeReg .w24 (regFrame x y) a b).unconfigured.answered cw 1 (Response.error .busFault)
        [a.faultEvent .w24 (regFrame x y)] := by
  obtain ⟨u, hu, hstart, hstep⟩ := h.start
  exact (hstart.trans (hu.raises hstep (Width.trunc_regFrame _ _) hbus hfault h.onFault)).ends

end SeqOp.WritesRegister

/-! ## POWER_ON_ALL (R171) -/

section
variable {v : State} (h : v.Calm) (cw : HostWord)
include h

theorem powerOnAllOp_writesRegister : powerOnAllOp.WritesRegister v.cfg.regChPwrDn 0 cw v where
  calm := h
  start := ⟨v.disarmed, h.set, h.goes (k := 0) (evs := []) rfl, rfl⟩
  onOk _ _ hr := if_pos hr
  onFault _ := rfl

theorem powerOnAllOp_completes {a : BusAnswer} {b : List BusAnswer} {rx : BitVec 32} (hbus : v.busIn = a :: b)
    (hrx : a.word v.dev .w24 = some rx) :
    powerOnAllOp.run seqFuel (v.acceptP cw) =
      (v.disarmed.completed .writeReg .w24 (regFrame v.cfg.regChPwrDn 0) rx b).answered cw 2 Response.plain
        [.frame .w24 (regFrame v.cfg.regChPwrDn 0) (.rxOk (Width.w24.trunc rx))] := by
  have hframe := (powerOnAllOp_writesRegister h cw).completes hbus hrx
  have hcalm : (v.disarmed.completed .writeReg .w24 (regFrame v.cfg.regChPwrDn 0) rx b).Calm :=
    State.Calm.completed (v := v.disarmed) h.set _ _ _ _ _
  exact (hframe.trans (hcalm.answers rfl)).ends

end

/-- Settles O20: the answer of BUS to the one frame decides. -/
theorem powerOnAllRunsItsStepList : Obligations.PowerOnAllRunsItsStepList := by
  intro s a b hport hidle hlock hrst hbus
  have hacc : s.Accepts := ⟨hport, hidle, hlock, hrst⟩
  obtain ⟨t, hexec, hview⟩ := hacc.exec_view (i := .powerOnAll) rfl
  exact ⟨fun rx hrx => ⟨t, hexec, hview.trans (powerOnAllOp_completes hacc.calm _ hbus hrx)⟩,
    fun hfault => ⟨t, hexec, hview.trans ((powerOnAllOp_writesRegister hacc.calm _).faults hbus hfault)⟩⟩

/-! ## SET_RANGE (R175) -/

/-- The step list of a SET_RANGE with legal operands. -/
def setRangeLegalOp (c : Chan) (rg : Byte) : SeqOp where
  steps := 3
  step := setRangeStep c rg
  reply := fun k r s => if r.status = .ok then s.goto (k + 1) else s.raiseConfigFault

theorem setRangeOp_legal {ch rg : Byte} {c : Chan} (hch : ch.toNat = c.val) (hrg : rg.toNat ≤ 6) :
    setRangeOp ch rg = setRangeLegalOp c rg := by
  simp [setRangeOp, chan?_some hch, legalRange, hrg, setRangeLegalOp]

section
variable {v : State} (h : v.Calm) (cw : HostWord) (c : Chan) (rg : Byte)
include h

theorem setRangeLegalOp_writesRegister : (setRangeLegalOp c rg).WritesRegister (v.cfg.rangeReg c) rg cw v where
  calm := h
  start := ⟨v, h, h.goes (k := 0) (evs := []) rfl, rfl⟩
  onOk _ _ hr := if_pos hr
  onFault _ := rfl

theorem setRangeLegalOp_completes {a : BusAnswer} {b : List BusAnswer} {rx : BitVec 32} (hbus : v.busIn = a :: b)
    (hrx : a.word v.dev .w24 = some rx) :
    (setRangeLegalOp c rg).run seqFuel (v.acceptP cw) =
      ({ v.disarmed.completed .writeReg .w24 (regFrame (v.cfg.rangeReg c) rg) rx b with
          range := v.range.set c rg } : State).answered cw 2 Response.plain
        [.frame .w24 (regFrame (v.cfg.rangeReg c) rg) (.rxOk (Width.w24.trunc rx))] := by
  have hframe := (setRangeLegalOp_writesRegister h cw c rg).completes hbus hrx
  let u : State := v.disarmed.completed .writeReg .w24 (regFrame (v.cfg.rangeReg c) rg) rx b
  have hu : u.Calm := State.Calm.completed (v := v.disarmed) h.set _ _ _ _ _
  exact (hframe.trans (hu.answers (u := { u with range := v.range.set c rg }) rfl)).ends

end

/-- Settles O21: the operand checks come before the bus (R305), and the answer of BUS decides the rest. -/
theorem setRangeRunsItsStepList : Obligations.SetRangeRunsItsStepList := by
  intro s ch rg hport hidle hlock hrst
  have hacc : s.Accepts := ⟨hport, hidle, hlock, hrst⟩
  rw [← hostWordOf_setRange]
  refine ⟨fun hill => hacc.illegalOperand (congrArg some (setRangeOp_illegal hill)), fun c a b hch hrg hbus => ?_⟩
  obtain ⟨t, hexec, hview⟩ := hacc.exec_view (i := .setRange ch rg) (congrArg some (setRangeOp_legal hch hrg))
  exact ⟨fun rx hrx => ⟨t, hexec, hview.trans (setRangeLegalOp_completes hacc.calm _ c rg hbus hrx)⟩,
    fun hfault => ⟨t, hexec, hview.trans ((setRangeLegalOp_writesRegister hacc.calm _ c rg).faults hbus hfault)⟩⟩

/-! ## ENTER_SCAN (R184) -/

section
variable {v : State} (h : v.Calm) (cw : HostWord)
include h

theorem enterScanOp_refuses (hdrv : v.drvState = .uninitialized) :
    enterScanOp.run seqFuel (v.acceptP cw) = v.answered cw 0 (Response.error .notInitialized) [] :=
  (h.answers (op := enterScanOp) (k := 0) (evs := []) (u := v) (congrArg noFrame (if_pos hdrv))).ends

variable (hdrv : v.drvState ≠ .uninitialized)
include hdrv

theorem enterScanOp_manual (hman : v.straps.strategy = .manual) :
    enterScanOp.run seqFuel (v.acceptP cw) =
      ({ v with drvState := .ready } : State).answered cw 3 Response.plain [] := by
  have hstart : enterScanOp.Leads 1 (v.within cw 0 []) (v.within cw 3 []) :=
    h.goes (congrArg noFrame ((if_neg hdrv).trans (if_pos hman)))
  exact (hstart.trans (h.answers (u := { v with drvState := .ready }) rfl)).ends

variable (hauto : v.straps.strategy = .autoSeq)
include hauto

theorem enterScanOp_writesRegister : enterScanOp.WritesRegister v.cfg.regAutoSeqEn v.cfg.seqEnAll cw v where
  calm := h
  start := by
    have hstrategy : ¬v.straps.strategy = .manual := by simp [hauto]
    exact ⟨v, h, h.goes (k := 0) (evs := []) (congrArg noFrame ((if_neg hdrv).trans (if_neg hstrategy))), rfl⟩
  onOk _ _ hr := if_pos hr
  onFault _ := rfl

section
variable {a₁ a₂ : BusAnswer} {b : List BusAnswer} {rx₁ : BitVec 32}
variable (hbus : v.busIn = a₁ :: a₂ :: b) (hrx₁ : a₁.word v.dev .w24 = some rx₁)
include hbus hrx₁

/-- The priming frame is completed too: it arms the sequence. -/
theorem enterScanOp_completes {rx₂ : BitVec 32}
    (hrx₂ : a₂.word (v.dev.receive v.cfg .w24 (regFrame v.cfg.regAutoSeqEn v.cfg.seqEnAll)) .w32 = some rx₂) :
    enterScanOp.run seqFuel (v.acceptP cw) =
      ({ (v.completed .writeReg .w24 (regFrame v.cfg.regAutoSeqEn v.cfg.seqEnAll) rx₁ (a₂ :: b)).completed
            .transact .w32 (cmdFrame v.cfg.opcAutoRst) rx₂ b with
          drvState := .ready, autoArmed := true } : State).answered cw 3 Response.plain
        [.frame .w24 (regFrame v.cfg.regAutoSeqEn v.cfg.seqEnAll) (.rxOk (Width.w24.trunc rx₁)),
          .frame .w32 (cmdFrame v.cfg.opcAutoRst) (.rxOk rx₂)] := by
  have hframe := (enterScanOp_writesRegister h cw hdrv hauto).completes hbus hrx₁
  let u : State := v.disarmed.completed .writeReg .w24 (regFrame v.cfg.regAutoSeqEn v.cfg.seqEnAll) rx₁ (a₂ :: b)
  let x : State := { u.completed .transact .w32 (cmdFrame v.cfg.opcAutoRst) rx₂ b with autoArmed := true }
  have hu : u.Calm := State.Calm.completed (v := v.disarmed) h.set _ _ _ _ _
  have hx : x.Calm := ⟨h.slots, rfl⟩
  have hprime : ∀ evs, enterScanOp.Leads 1 (u.within cw 2 evs)
      (x.within cw 3 (evs ++ [.frame .w32 (cmdFrame v.cfg.opcAutoRst) (.rxOk rx₂)])) :=
    fun _ => hu.commands rfl rfl hrx₂ rfl
  exact (hframe.trans ((hprime _).trans (hx.answers (u := { x with drvState := .ready }) rfl))).ends

/-- The priming frame faults. -/
theorem enterScanOp_secondFaults (hfault : a₂.isFault = true) :
    enterScanOp.run seqFuel (v.acceptP cw) =
      ((v.completed .writeReg .w24 (regFrame v.cfg.regAutoSeqEn v.cfg.seqEnAll) rx₁ (a₂ :: b)).faulted
          .transact .w32 (cmdFrame v.cfg.opcAutoRst) a₂ b).unconfigured.answered cw 2 (Response.error .busFault)
        [.frame .w24 (regFrame v.cfg.regAutoSeqEn v.cfg.seqEnAll) (.rxOk (Width.w24.trunc rx₁)),
          a₂.faultEvent .w32 (cmdFrame v.cfg.opcAutoRst)] := by
  have hframe := (enterScanOp_writesRegister h cw hdrv hauto).completes hbus hrx₁
  let u : State := v.disarmed.completed .writeReg .w24 (regFrame v.cfg.regAutoSeqEn v.cfg.seqEnAll) rx₁ (a₂ :: b)
  have hu : u.Calm := State.Calm.completed (v := v.disarmed) h.set _ _ _ _ _
  exact (hframe.trans (hu.raises rfl (Width.trunc_w32 _) rfl hfault fun _ => rfl)).ends

end

end

/-- Settles O24: by DRV_STATE and the strap, and then by the answers of BUS. -/
theorem enterScanRunsItsStepList : Obligations.EnterScanRunsItsStepList := by
  intro s hport hidle hlock hrst
  have hacc : s.Accepts := ⟨hport, hidle, hlock, hrst⟩
  obtain ⟨t, hexec, hview⟩ := hacc.exec_view (i := .enterScan) rfl
  have hcalm := hacc.calm
  refine ⟨fun hdrv => ?_, fun hdrv hman => ?_, fun rx₁ rx₂ d b hdrv hauto hex => ?_,
    fun a b hdrv hauto hbus hfault => ?_, fun a₁ rx₁ a₂ b hdrv hauto hbus hrx₁ hfault => ?_⟩ <;>
    refine ⟨t, hexec, hview.trans ?_⟩
  · exact enterScanOp_refuses hcalm _ hdrv
  · exact enterScanOp_manual hcalm _ hdrv hman
  · obtain ⟨a₁, a₂, hbus, hrx₁, hrx₂, rfl⟩ := exchange_pair hex
    exact enterScanOp_completes hcalm _ hdrv hauto hbus hrx₁ hrx₂
  · exact (enterScanOp_writesRegister hcalm _ hdrv hauto).faults hbus hfault
  · exact enterScanOp_secondFaults hcalm _ hdrv hauto hbus hrx₁ hfault

/-! ## RESET (R166) -/

theorem State.clearBuffer_of_free {s : State} (h : s.bufLock = .free) :
    s.clearBuffer = { s with valid := 0, epoch := s.epoch + 1 } := by
  simp [State.clearBuffer, State.writeBuffer, ← h]

/-- `v` after steps 0 and 1 of RESET, but for their events. -/
def State.resetBegun (v : State) : State :=
  { v with
    drvState := .resetting, autoArmed := false, range := Vector.replicate 8 0, valid := 0, epoch := v.epoch + 1,
    ft := { v.ft with cs := .deasserted } }

/-- `v` after step 3 of RESET, whose frame BUS completed with `rx`, but for its events. -/
def State.resetSent (v : State) (rx : BitVec 32) (b : List BusAnswer) : State :=
  v.resetBegun.completed .transact .w32 (cmdFrame v.cfg.opcRst) rx b

theorem State.Calm.resetBegun {v : State} (h : v.Calm) : v.resetBegun.Calm := ⟨h.slots, h.idle⟩

theorem State.Calm.resetSent {v : State} (h : v.Calm) (rx : BitVec 32) (b : List BusAnswer) : (v.resetSent rx b).Calm :=
  h.resetBegun.completed _ _ _ _ _

/-- Step F. -/
theorem resetOp_fails {v : State} (h : v.Calm) (cw : HostWord) (evs : List Event) :
    resetOp.Leads 1 (v.within cw 7 evs) (v.unconfigured.answered cw 7 (Response.error .busFault) evs) :=
  h.answers (u := v.unconfigured) rfl

section
variable {v : State} (h : v.Calm) (hlock : v.bufLock = .free) (cw : HostWord)
include h hlock

/-- Steps 0 to 2. -/
theorem resetOp_start :
    resetOp.Leads 3 (v.acceptP cw) (v.resetBegun.within cw 3 [.csDeassert, .delay v.cfg.tPowerStable]) := by
  let u : State := { v.resetBegun with ft := v.ft }
  have hu : u.Calm := h.set
  have hclear : resetOp.Leads 1 (v.within cw 0 []) (u.within cw 1 []) :=
    h.goes (congrArg (fun t : State => noFrame (t.goto 1)) (State.clearBuffer_of_free
      (s := { v.within cw 0 [] with
        drvState := .resetting, autoArmed := false, range := Vector.replicate 8 rangeDefault }) hlock))
  have hdeassert : resetOp.Leads 1 (u.within cw 1 []) (v.resetBegun.within cw 2 [.csDeassert]) :=
    hu.goes (congrArg (fun t : State => noFrame (t.goto 2)) (v.resetBegun.emit_within cw 1 [] .csDeassert))
  have hwait : resetOp.Leads 1 (v.resetBegun.within cw 2 [.csDeassert])
      (v.resetBegun.within cw 3 [.csDeassert, .delay v.cfg.tPowerStable]) :=
    h.resetBegun.goes (congrArg (fun t : State => noFrame (t.goto 3)) (v.resetBegun.emit_within cw 2 [.csDeassert] _))
  exact hclear.trans (hdeassert.trans hwait)

/-- Step 3 faults. -/
theorem resetOp_firstFaults {a : BusAnswer} {b : List BusAnswer} (hbus : v.busIn = a :: b) (hfault : a.isFault = true) :
    resetOp.run seqFuel (v.acceptP cw) =
      (v.resetBegun.faulted .transact .w32 (cmdFrame v.cfg.opcRst) a b).unconfigured.answered cw 7
        (Response.error .busFault)
        [.csDeassert, .delay v.cfg.tPowerStable, a.faultEvent .w32 (cmdFrame v.cfg.opcRst)] := by
  let u : State := v.resetBegun.faulted .transact .w32 (cmdFrame v.cfg.opcRst) a b
  have hu : u.Calm := h.resetBegun.faulted _ _ _ _ _
  have hframe : ∀ evs, resetOp.Leads 1 (v.resetBegun.within cw 3 evs)
      (u.within cw 7 (evs ++ [a.faultEvent .w32 (cmdFrame v.cfg.opcRst)])) :=
    fun _ => h.resetBegun.faults rfl (Width.trunc_w32 _) hbus hfault rfl
  exact ((resetOp_start h hlock cw).trans ((hframe _).trans (resetOp_fails hu cw _))).ends

section
variable {a₁ a₂ : BusAnswer} {b : List BusAnswer} {rx₁ : BitVec 32}
variable (hbus : v.busIn = a₁ :: a₂ :: b) (hrx₁ : a₁.word v.dev .w32 = some rx₁)
include hbus hrx₁

/-- Steps 0 to 4, where BUS completes the frame of step 3. -/
theorem resetOp_first :
    resetOp.Leads 5 (v.acceptP cw)
      ((v.resetSent rx₁ (a₂ :: b)).within cw 5
        [.csDeassert, .delay v.cfg.tPowerStable, .frame .w32 (cmdFrame v.cfg.opcRst) (.rxOk rx₁),
          .delay v.cfg.tResetSettle]) := by
  let u : State := v.resetSent rx₁ (a₂ :: b)
  have hu : u.Calm := h.resetSent rx₁ _
  have hframe : ∀ evs, resetOp.Leads 1 (v.resetBegun.within cw 3 evs)
      (u.within cw 4 (evs ++ [.frame .w32 (cmdFrame v.cfg.opcRst) (.rxOk rx₁)])) :=
    fun _ => h.resetBegun.commands rfl hbus hrx₁ rfl
  have hwait : ∀ evs, resetOp.Leads 1 (u.within cw 4 evs) (u.within cw 5 (evs ++ [.delay v.cfg.tResetSettle])) :=
    fun evs => hu.goes (congrArg (fun t : State => noFrame (t.goto 5)) (u.emit_within cw 4 evs _))
  exact (resetOp_start h hlock cw).trans ((hframe _).trans (hwait _))

theorem resetOp_completes {rx₂ : BitVec 32}
    (hrx₂ : a₂.word (v.dev.receive v.cfg .w32 (cmdFrame v.cfg.opcRst)) .w24 = some rx₂) :
    resetOp.run seqFuel (v.acceptP cw) =
      ({ (v.resetSent rx₁ (a₂ :: b)).completed .writeReg .w24 (regFrame v.cfg.regChPwrDn 0) rx₂ b with
          drvState := .configuring } : State).answered cw 6 Response.plain
        [.csDeassert, .delay v.cfg.tPowerStable, .frame .w32 (cmdFrame v.cfg.opcRst) (.rxOk rx₁),
          .delay v.cfg.tResetSettle, .frame .w24 (regFrame v.cfg.regChPwrDn 0) (.rxOk (Width.w24.trunc rx₂))] := by
  let u : State := v.resetSent rx₁ (a₂ :: b)
  let x : State := u.completed .writeReg .w24 (regFrame v.cfg.regChPwrDn 0) rx₂ b
  have hu : u.Calm := h.resetSent rx₁ _
  have hx : x.Calm := hu.completed _ _ _ _ _
  have hframe : ∀ evs, resetOp.Leads 1 (u.within cw 5 evs)
      (x.within cw 6 (evs ++ [.frame .w24 (regFrame v.cfg.regChPwrDn 0) (.rxOk (Width.w24.trunc rx₂))])) :=
    fun _ => hu.completes rfl (Width.trunc_regFrame _ _) rfl hrx₂ rfl
  exact ((resetOp_first h hlock cw hbus hrx₁).trans
    ((hframe _).trans (hx.answers (u := { x with drvState := .configuring }) rfl))).ends

/-- Step 5 faults. -/
theorem resetOp_secondFaults (hfault : a₂.isFault = true) :
    resetOp.run seqFuel (v.acceptP cw) =
      ((v.resetSent rx₁ (a₂ :: b)).faulted .writeReg .w24 (regFrame v.cfg.regChPwrDn 0) a₂ b).unconfigured.answered cw 7
        (Response.error .busFault)
        [.csDeassert, .delay v.cfg.tPowerStable, .frame .w32 (cmdFrame v.cfg.opcRst) (.rxOk rx₁),
          .delay v.cfg.tResetSettle, a₂.faultEvent .w24 (regFrame v.cfg.regChPwrDn 0)] := by
  let u : State := v.resetSent rx₁ (a₂ :: b)
  let x : State := u.faulted .writeReg .w24 (regFrame v.cfg.regChPwrDn 0) a₂ b
  have hu : u.Calm := h.resetSent rx₁ _
  have hx : x.Calm := hu.faulted _ _ _ _ _
  have hframe : ∀ evs, resetOp.Leads 1 (u.within cw 5 evs)
      (x.within cw 7 (evs ++ [a₂.faultEvent .w24 (regFrame v.cfg.regChPwrDn 0)])) :=
    fun _ => hu.faults rfl (Width.trunc_regFrame _ _) rfl hfault rfl
  exact ((resetOp_first h hlock cw hbus hrx₁).trans ((hframe _).trans (resetOp_fails hx cw _))).ends

end

end

/-- Settles O19: by the answers of BUS to the frames of steps 3 and 5. -/
theorem resetRunsItsStepList : Obligations.ResetRunsItsStepList := by
  intro s hport hidle hlock hrst
  have hacc : s.Accepts := ⟨hport, hidle, hlock, hrst⟩
  obtain ⟨t, hexec, hview⟩ := hacc.exec_view (i := .reset) rfl
  have hcalm := hacc.calm
  refine ⟨fun rx₁ rx₂ d b hex => ?_, fun a b hbus hfault => ?_, fun a₁ rx₁ a₂ b hbus hrx₁ hfault => ?_⟩ <;>
    refine ⟨t, hexec, hview.trans ?_⟩
  · obtain ⟨a₁, a₂, hbus, hrx₁, hrx₂, rfl⟩ := exchange_pair hex
    exact resetOp_completes hcalm hlock _ hbus hrx₁ hrx₂
  · exact resetOp_firstFaults hcalm hlock _ hbus hfault
  · exact resetOp_secondFaults hcalm hlock _ hbus hrx₁ hfault

end Sys2Proof.Machine
end

section
/-! PROOFS. The record of ranges (R176, R179): only RESET and a completed SET_RANGE write it, GET_RANGE answers it. -/

namespace Sys2Proof.Machine

open Sys2Proof

/-! ## Beside port C (R79) -/

/-- A property of SEQ's registers: neither what port C writes nor the slots matter to it. -/
def IgnoresPortC (P : State → Prop) : Prop :=
  ∀ (s : State) (r : Option Response) (lock : BufLock) (hist : List Event) (slots : List Slot),
    P s → P { s with cResp := r, bufLock := lock, hist := hist, slots := slots }

theorem IgnoresPortC.serveAll {P : State → Prop} (hP : IgnoresPortC P) {s : State} (h : P s) (cws : List HostWord) :
    P (s.serveAll cws) := by
  obtain ⟨r, evs, lock, _, _, ht⟩ := State.serveAll_frame cws s
  exact ht ▸ hP s r lock _ s.slots h

/-- A tick where no hardware reset is due leaves what its step leaves. -/
theorem IgnoresPortC.tick {P Q : State → Prop} (hP : IgnoresPortC P) (hQ : IgnoresPortC Q) {f : State → State}
    (hf : ∀ s, P s → Q (f s)) {s : State} (hr : s.NoRst) (h : P s) : Q (s.tick f) := by
  have hpop : ∀ l, P { s with slots := l } := fun l => hP s s.cResp s.bufLock s.hist l h
  rcases s.tick_cases f with ⟨_, ht⟩ | ⟨l, _, ht⟩ | ⟨cws, l, _, ht⟩ | ⟨cws, l, _, ht⟩ | ⟨k, l, hk, _⟩
  · exact ht ▸ hf s h
  · exact ht ▸ hf _ (hpop l)
  · exact ht ▸ hf _ (hP.serveAll (hpop l) cws)
  · exact ht ▸ hQ.serveAll (hf _ (hpop l)) cws
  · exact absurd (hk ▸ List.mem_cons_self) (hr k)

/-- What every micro-step keeps, the run keeps where no hardware reset is due. -/
theorem IgnoresPortC.run {P : State → Prop} (hP : IgnoresPortC P) {op : SeqOp} (hslots : op.KeepsSlots)
    (hmicro : ∀ s, P s → s.busy = true → P (op.micro s)) (n : Nat) {s : State} (hr : s.NoRst) (h : P s) :
    P (op.run n s) := by
  have hbusy : IgnoresPortC fun s => P s ∧ s.busy = true := fun s r lock hist slots hs =>
    ⟨hP s r lock hist slots hs.1, hs.2⟩
  refine (op.run_keeps (P := fun s => s.NoRst ∧ P s) (fun s hs hb _ => ?_) n s ⟨hr, h⟩).2
  exact ⟨State.tick_noRst hslots hs.1, hbusy.tick hP (fun u hu => hmicro u hu.1 hu.2) hs.1 ⟨hs.2, hb⟩⟩

/-! ## The port of the word in progress -/

theorem State.request_port (s : State) (kind : ReqKind) (w : Width) (tx : TxWord) :
    (s.request kind w tx).1.port = s.port := by
  rcases s.request_cases kind w tx with ⟨b, _, h⟩ | ⟨a, b, rx, _, _, h⟩ | ⟨a, b, _, _, h⟩ <;> rw [h]

theorem State.SeqWrites.port {s t : State} (h : s.SeqWrites t) : t.port = s.port := by
  induction h with
  | refl => rfl
  | tail _ hw ih =>
    cases hw with
    | request kind w tx => exact (State.request_port _ kind w tx).trans ih
    | _ => exact ih

/-! ## Operations that keep the range of a channel -/

theorem State.request_range (s : State) (kind : ReqKind) (w : Width) (tx : TxWord) :
    (s.request kind w tx).1.range = s.range := by
  rcases s.request_cases kind w tx with ⟨b, _, h⟩ | ⟨a, b, rx, _, _, h⟩ | ⟨a, b, _, _, h⟩ <;> rw [h]

/-- `t` has the range of channel `c` that `s` has. -/
def State.KeepsRange (c : Chan) (s t : State) : Prop := t.range[c] = s.range[c]

namespace State.KeepsRange

variable {c : Chan} {s t u : State}

theorem same (h : t.range = s.range := by rfl) : s.KeepsRange c t := congrArg (fun r : Vector Byte 8 => r[c]) h

theorem trans (h : s.KeepsRange c t) (h' : t.KeepsRange c u) : s.KeepsRange c u := Eq.trans h' h

theorem ite {p : Prop} [Decidable p] (ht : s.KeepsRange c t) (hu : s.KeepsRange c u) :
    s.KeepsRange c (if p then t else u) := by
  split
  · exact ht
  · exact hu

theorem command (h : t.range = s.range := by rfl) (cmd : BitVec 16) : s.KeepsRange c (t.command cmd).1 :=
  same ((t.request_range _ _ _).trans h)

theorem regWrite (h : t.range = s.range := by rfl) (a : BitVec 7) (v : Byte) : s.KeepsRange c (t.regWrite a v).1 :=
  same ((t.request_range _ _ _).trans h)

end State.KeepsRange

/-- An operation that keeps the range of channel `c`. -/
structure SeqOp.KeepsRange (op : SeqOp) (c : Chan) : Prop where
  step : ∀ (k : Nat) (s : State), s.KeepsRange c (op.step k s).1
  reply : ∀ (k : Nat) (r : FtReply) (s : State), s.KeepsRange c (op.reply k r s)

theorem SeqOp.KeepsRange.micro {op : SeqOp} {c : Chan} (h : op.KeepsRange c) (s : State) :
    s.KeepsRange c (op.micro s) := by
  have hs := h.step s.seqK s
  unfold SeqOp.micro
  split <;> rename_i ht <;> rw [ht] at hs
  · exact hs
  · exact hs.trans (h.reply _ _ _)

theorem chan?_val {ch : Byte} {c : Chan} (h : chan? ch = some c) : ch.toNat = c.val := by
  unfold chan? at h
  split at h <;> cases h
  rfl

section
variable (c : Chan)

theorem powerOnAllOp_keepsRange : powerOnAllOp.KeepsRange c where
  step k s := by
    rcases k with _ | _ | k
    · exact .same
    · exact .regWrite rfl _ _
    · exact .same
  reply _ _ _ := .ite .same .same

theorem illegalOperandOp_keepsRange : illegalOperandOp.KeepsRange c where
  step _ _ := .same
  reply _ _ _ := .same

/-- SET_RANGE writes the range of its own channel only (R175). -/
theorem setRangeOp_keepsRange {ch : Byte} (h : ch.toNat ≠ c.val) (rg : Byte) : (setRangeOp ch rg).KeepsRange c := by
  unfold setRangeOp
  split
  · rename_i d hd
    have hne : d.val ≠ c.val := fun hdc => h ((chan?_val hd).trans hdc)
    split
    · refine ⟨fun k s => ?_, fun _ _ _ => .ite .same .same⟩
      rcases k with _ | _ | k
      · exact .same
      · exact .regWrite rfl _ _
      · exact Vector.getElem_set_ne d.isLt c.isLt hne
    · exact illegalOperandOp_keepsRange c
  · exact illegalOperandOp_keepsRange c

theorem getRangeOp_keepsRange (ch : Byte) : (getRangeOp ch).KeepsRange c := by
  unfold getRangeOp
  split
  · exact ⟨fun _ _ => .same, fun _ _ _ => .same⟩
  · exact illegalOperandOp_keepsRange c

theorem enterScanOp_keepsRange : enterScanOp.KeepsRange c where
  step k s := by
    rcases k with _ | _ | _ | k
    · exact .ite .same (.ite .same .same)
    · exact .regWrite rfl _ _
    · exact .command rfl _
    · exact .same
  reply _ _ _ := .ite (.ite .same .same) .same

theorem readChOp_keepsRange (ch : Byte) : (readChOp ch).KeepsRange c := by
  unfold readChOp
  split
  · refine ⟨fun k s => ?_, fun _ _ _ => .ite (.ite .same .same) .same⟩
    rcases k with _ | _ | _ | _ | k
    · exact .ite .same .same
    · exact .command rfl _
    · exact .command rfl _
    · exact .same
    · exact .same
  · exact ⟨fun _ _ => .ite .same .same, fun _ _ _ => .same⟩

theorem scanManualStep_keepsRange (k : Nat) (s : State) : s.KeepsRange c (scanManualStep k s).1 := by
  unfold scanManualStep
  split
  · exact .ite .same .same
  · exact .command rfl _
  · exact .same
  · split
    · exact .command rfl _
    · exact .same

theorem scanAutoStep_keepsRange (k : Nat) (s : State) : s.KeepsRange c (scanAutoStep k s).1 := by
  unfold scanAutoStep
  split
  · exact .ite .same .same
  · split
    · exact .same
    · exact .command rfl _
  · exact .command rfl _
  · exact .command rfl _
  · exact .same
  · split
    · exact .command rfl _
    · exact .same

theorem scanAllOp_keepsRange : scanAllOp.KeepsRange c where
  step k s := by
    simp only [scanAllOp]
    split
    · exact scanManualStep_keepsRange c k s
    · exact scanAutoStep_keepsRange c k s
  reply k r s := by
    simp only [scanAllOp]
    split
    · exact .ite (.ite .same .same) .same
    · exact .ite (.ite .same (.ite .same .same)) .same

theorem getCodesOp_keepsRange : getCodesOp.KeepsRange c where
  step _ _ := .same
  reply _ _ _ := .same

theorem toVoltageOp_keepsRange (code : Code) (rg : Byte) : (toVoltageOp code rg).KeepsRange c where
  step _ _ := .same
  reply _ _ _ := .same

end

/-- The operations but RESET and the channel's own SET_RANGE. -/
theorem seqOpOf_keepsRange {i : Instr} {op : SeqOp} {c : Chan} (h : seqOpOf i = some op) (hreset : i ≠ .reset)
    (hset : ∀ ch rg, i = .setRange ch rg → ch.toNat ≠ c.val) : op.KeepsRange c := by
  cases i with
  | reset => exact absurd rfl hreset
  | powerOnAll => cases h; exact powerOnAllOp_keepsRange c
  | setRange ch rg => cases h; exact setRangeOp_keepsRange c (hset ch rg rfl) rg
  | getRange ch => cases h; exact getRangeOp_keepsRange c ch
  | enterScan => cases h; exact enterScanOp_keepsRange c
  | readCh ch => cases h; exact readChOp_keepsRange c ch
  | scanAll => cases h; exact scanAllOp_keepsRange c
  | getCodes => cases h; exact getCodesOp_keepsRange c
  | toVoltage code rg => cases h; exact toVoltageOp_keepsRange c code rg
  | _ => cases h

/-! ## Instructions where no hardware reset is due -/

theorem State.Evolves.noRst {s t : State} (h : s.Evolves t) (hr : s.NoRst) : t.NoRst :=
  fun k hk => hr k (h.slots.subset hk)

/-- A bench's request is none of the port's, and keeps RANGE. -/
theorem State.benchRun_keeps (s : State) (f : Option (ReqKind × Width × TxWord)) :
    (s.benchRun f).port = s.port ∧ (s.benchRun f).range = s.range := by
  cases f with
  | none => exact ⟨rfl, rfl⟩
  | some f =>
    obtain ⟨kind, w, tx⟩ := f
    have hport := s.request_port kind w tx
    have hrange := s.request_range kind w tx
    show (s.benchRequest kind w tx).port = s.port ∧ (s.benchRequest kind w tx).range = s.range
    unfold State.benchRequest
    split <;> rename_i hreq <;> rw [hreq] at hport hrange <;> exact ⟨hport, hrange⟩

section
variable {i : Instr} {s t : State} (hport : s.port = .P) (hr : s.NoRst) (h : exec i s = .next t)
include hport hr h

/-- What an operation's acceptance and every micro-step keep, the instruction keeps. -/
theorem exec_keeps {op : SeqOp} (hop : seqOpOf i = some op) {P : State → Prop} (hP : IgnoresPortC P)
    (hmicro : ∀ u, P u → u.busy = true → P (op.micro u)) (haccept : P (s.acceptP (hostWordOf i))) : P t := by
  cases (exec_portP hop hport).symm.trans h
  exact hP.run (seqOpOf_blind hop).2.2 hmicro seqFuel (s := s.acceptP (hostWordOf i)) hr haccept

/-- The next word comes on port P too, with no hardware reset due. -/
theorem exec_accepts : t.port = .P ∧ t.NoRst := by
  obtain ⟨_, hnext, hev⟩ := exec_evolves i s
  cases h.symm.trans hnext
  refine ⟨?_, hev.noRst hr⟩
  cases hop : seqOpOf i with
  | none =>
    cases (exec_bench s hop).symm.trans h
    exact (s.benchRun_keeps _).1.trans hport
  | some op =>
    exact exec_keeps hport hr h hop (P := fun u => u.port = .P) (fun _ _ _ _ _ hu => hu)
      (fun u hu _ => ((seqOpOf_writes hop).micro u).port.trans hu) hport

theorem exec_keepsRange {c : Chan} (hreset : i ≠ .reset) (hset : ∀ ch rg, i = .setRange ch rg → ch.toNat ≠ c.val) :
    s.KeepsRange c t := by
  cases hop : seqOpOf i with
  | none =>
    cases (exec_bench s hop).symm.trans h
    exact .same (s.benchRun_keeps _).2
  | some op =>
    have hkeeps := seqOpOf_keepsRange hop hreset hset
    exact exec_keeps hport hr h hop (P := s.KeepsRange c) (fun _ _ _ _ _ hu => hu)
      (fun u hu _ => hu.trans (hkeeps.micro u)) .same

end

theorem execAll_keepsRange {c : Chan} {is : List Instr} {s t : State} (hport : s.port = .P) (hr : s.NoRst)
    (his : ∀ i ∈ is, i ≠ .reset ∧ ∀ ch rg, i = .setRange ch rg → ch.toNat ≠ c.val) (h : execAll is s = some t) :
    t.port = .P ∧ t.NoRst ∧ s.KeepsRange c t := by
  induction is generalizing s with
  | nil =>
    cases h
    exact ⟨hport, hr, .same⟩
  | cons i is ih =>
    obtain ⟨⟨hreset, hset⟩, his⟩ := List.forall_mem_cons.mp his
    obtain ⟨u, hu, _⟩ := exec_evolves i s
    obtain ⟨hport', hr'⟩ := exec_accepts hport hr hu
    simp only [execAll, hu] at h
    obtain ⟨hp, hn, hrest⟩ := ih hport' hr' his h
    exact ⟨hp, hn, (exec_keepsRange hport hr hu hreset hset).trans hrest⟩

/-! ## SET_RANGE and GET_RANGE, whenever they respond -/

/-- A SET_RANGE of channel `c` is in progress and has not written its range, `old`, or it has responded: the range is
`new` where it was answered `Ok`, still `old` where it was answered `BusFault`. -/
structure State.SetsRange (c : Chan) (old new : Byte) (s : State) : Prop where
  before : s.busy = true ∨ s.curStatus = .busFault → s.range[c] = old
  after : s.busy = false → s.curStatus = .ok → s.range[c] = new

namespace State.SetsRange

variable {c : Chan} {old new : Byte} {s t : State} (h : s.SetsRange c old new) (hbusy : s.busy = true)
include h hbusy

theorem goesOn (ht : t.busy = s.busy) (hrange : t.range = s.range) : t.SetsRange c old new where
  before _ := hrange ▸ h.before (.inl hbusy)
  after hended := nomatch (ht.trans hbusy).symm.trans hended

theorem raises (st : Status) (hst : st ≠ .ok) (hrange : t.range = s.range) (ht : t.curStatus = st) :
    t.SetsRange c old new where
  before _ := hrange ▸ h.before (.inl hbusy)
  after _ hok := absurd (ht.symm.trans hok) hst

end State.SetsRange

theorem illegalOperandOp_setsRange {c : Chan} {old new : Byte} {s : State} (h : s.SetsRange c old new)
    (hbusy : s.busy = true) : (illegalOperandOp.micro s).SetsRange c old new :=
  h.raises hbusy .invalidArgument nofun rfl rfl

theorem setRangeLegalOp_setsRange {c : Chan} {old new : Byte} {s : State} (h : s.SetsRange c old new)
    (hbusy : s.busy = true) : ((setRangeLegalOp c new).micro s).SetsRange c old new := by
  rcases hk : s.seqK with _ | _ | k <;> have hstep := congrArg ((setRangeLegalOp c new).step · s) hk
  · exact SeqOp.micro_none (t := s.goto 1) hstep ▸ h.goesOn hbusy rfl rfl
  · rcases State.request_cases { s with autoArmed := false } .writeReg .w24 (regFrame (s.cfg.rangeReg c) new) with
      ⟨b, _, hr⟩ | ⟨a, b, rx, _, _, hr⟩ | ⟨a, b, _, _, hr⟩
    · exact SeqOp.micro_none (hstep.trans hr) ▸ h.goesOn hbusy rfl rfl
    · exact SeqOp.micro_some (hstep.trans hr) ▸ h.goesOn hbusy rfl rfl
    · exact SeqOp.micro_some (hstep.trans hr) ▸ h.raises hbusy .busFault nofun rfl rfl
  · have hmicro := SeqOp.micro_none (t := { s with range := s.range.set c new }.respondP Response.plain) hstep
    rw [hmicro]
    exact ⟨fun hor => hor.elim nofun nofun, fun _ _ => Vector.getElem_set_self _⟩

theorem exec_setRange {ch rg : Byte} {c : Chan} {s t : State} (hch : ch.toNat = c.val) (hport : s.port = .P)
    (hr : s.NoRst) (h : exec (.setRange ch rg) s = .next t) : t.SetsRange c s.range[c] rg := by
  refine exec_keeps hport hr h rfl (P := State.SetsRange c s.range[c] rg) (fun _ _ _ _ _ hu => ⟨hu.before, hu.after⟩)
    (fun u hu hbusy => ?_) ⟨fun _ => rfl, nofun⟩
  by_cases hrg : rg.toNat ≤ 6
  · exact setRangeOp_legal hch hrg ▸ setRangeLegalOp_setsRange hu hbusy
  · exact setRangeOp_illegal (.inr (Nat.lt_of_not_le hrg)) ▸ illegalOperandOp_setsRange hu hbusy

/-- GET_RANGE answers the range of its channel, once it responds. -/
theorem exec_getRange {ch : Byte} {c : Chan} {s t : State} (hch : ch.toNat = c.val) (hport : s.port = .P)
    (hr : s.NoRst) (h : exec (.getRange ch) s = .next t) (hended : t.busy = false) :
    t.pResp = some (Response.scalar s.range[c]) := by
  have hanswers := exec_keeps hport hr h rfl
    (P := fun u => s.KeepsRange c u ∧ (u.busy = false → u.pResp = some (Response.scalar s.range[c])))
    (fun _ _ _ _ _ hu => hu) (fun u hu _ => ?_) ⟨.same, nofun⟩
  · exact hanswers.2 hended
  · have hop : (getRangeOp ch).micro u = u.respondP (Response.scalar u.range[c]) := by
      simp only [getRangeOp, chan?_some hch]; rfl
    rw [hop]
    exact ⟨hu.1, fun _ => congrArg (fun x : Byte => some (Response.scalar x)) hu.1⟩

/-- Settles O22: SET_RANGE leaves its range or the one before, what follows keeps it, GET_RANGE answers it. -/
theorem getRangeReturnsTheRangeSet : Obligations.GetRangeReturnsTheRangeSet := by
  intro ch rg c s t u v is hch hport hr hset hset_ended his hall hget hget_ended
  have hrange := exec_setRange hch hport hr hset
  obtain ⟨htport, htr⟩ := exec_accepts hport hr hset
  have hothers : ∀ i ∈ is, i ≠ .reset ∧ ∀ ch' rg', i = .setRange ch' rg' → ch'.toNat ≠ c.val := fun i hi =>
    ⟨(his i hi).1, fun ch' rg' hi' hch' => (his i hi).2 rg' (BitVec.eq_of_toNat_eq (hch'.trans hch.symm) ▸ hi')⟩
  obtain ⟨huport, hur, hkept⟩ := execAll_keepsRange htport htr hothers hall
  rw [exec_getRange hch huport hur hget hget_ended, show u.range[c] = t.range[c] from hkept]
  exact ⟨fun hok => by rw [hrange.after hset_ended hok], fun hfault => by rw [hrange.before (.inr hfault)]⟩

/-! ## RESET clears the record (R166, R179) -/

/-- RESET stands past its step 0, and RANGE is 0x00 for every channel. -/
def State.RangesCleared (s : State) : Prop := 0 < s.seqK ∧ s.range = Vector.replicate 8 rangeDefault

theorem resetOp_micro_range {s : State} (h : 0 < s.seqK) : (resetOp.micro s).range = s.range := by
  have hstep : (resetOp.step s.seqK s).1.range = s.range := by
    rcases hk : s.seqK with _ | _ | _ | _ | _ | _ | _ | k
    · exact absurd hk h.ne'
    · rfl
    · rfl
    · exact s.request_range _ _ _
    · rfl
    · exact s.request_range _ _ _
    · rfl
    · rfl
  unfold SeqOp.micro
  split <;> rename_i ht <;> rw [ht] at hstep
  · exact hstep
  · refine Eq.trans ?_ hstep
    show (State.nextOr _ _ _ 7).range = _
    unfold State.nextOr
    split <;> rfl

/-- Its first micro-step clears RANGE, and no later one writes it. -/
theorem exec_reset_range {s t : State} (hport : s.port = .P) (hidle : s.ft.state = .idle) (hr : s.NoRst)
    (h : exec .reset s = .next t) : t.range = Vector.replicate 8 rangeDefault := by
  cases (exec_portP (i := .reset) rfl hport).symm.trans h
  have hslots : resetOp.KeepsSlots := (seqOpOf_blind (i := .reset) rfl).2.2
  have hcleared : IgnoresPortC State.RangesCleared := fun _ _ _ _ _ hu => hu
  have hfirst : ((s.acceptP (hostWordOf .reset)).tick resetOp.micro).RangesCleared := by
    refine IgnoresPortC.tick (P := fun u => u.seqK = 0) (fun _ _ _ _ _ hu => hu) hcleared (fun u hu => ?_)
      (s := s.acceptP (hostWordOf .reset)) hr rfl
    have hstep : resetOp.step u.seqK u = noFrame (({ u with
        drvState := .resetting, autoArmed := false, range := Vector.replicate 8 rangeDefault }.clearBuffer).goto 1) :=
      congrArg (resetOp.step · u) hu
    exact SeqOp.micro_none hstep ▸ ⟨Nat.one_pos, rfl⟩
  rw [show seqFuel = 15 + 1 from rfl, resetOp.run_active 15 (s := s.acceptP (hostWordOf .reset)) rfl hidle]
  refine (hcleared.run hslots (fun u hu _ => ?_) 15 (State.tick_noRst hslots (s := s.acceptP _) hr) hfirst).2
  exact ⟨(resetOp_writesOnce.pastMicro hu.1).2, (resetOp_micro_range hu.1).trans hu.2⟩

/-- Settles O23: GET_RANGE answers in its step 0. -/
theorem getRangeReadsTheRecord : Obligations.GetRangeReadsTheRecord := by
  intro s ch hport hidle hlock hrst
  have hacc : s.Accepts := ⟨hport, hidle, hlock, hrst⟩
  rw [← hostWordOf_getRange]
  refine ⟨fun hill => hacc.illegalOperand (congrArg some (getRangeOp_illegal hill)), fun c hch => ?_, fun c k => ?_,
    fun c t ht => ?_⟩
  · obtain ⟨t, hexec, hview⟩ := hacc.exec_view (i := .getRange ch) rfl
    have hanswer : (getRangeOp ch).Leads 1 (s.ownerView.within (hostWordOf (.getRange ch)) 0 []) _ :=
      hacc.calm.answers (u := s.ownerView) (r := Response.scalar s.range[c]) (by
        simp only [getRangeOp, chan?_some hch]; rfl)
    exact ⟨t, hexec, hview.trans hanswer.ends⟩
  · simp [State.hwReset, rangeDefault]
  · simp [exec_reset_range hport hidle hrst ht, rangeDefault]

end Sys2Proof.Machine
end

section
/-! PROOFS. READ_CH and GET_CODES (42_driver_scan.md: R200 to R204, R220), and the commit that READ_CH shares with a
pass (R211). -/

namespace Sys2Proof.Machine

open Sys2Proof

/-! ## A commit of an operation in progress (R78) -/

/-- `v` after a commit, but for its event (R78). -/
def State.committed (v : State) (code : Vector Code 8) (valid : BitVec 8) : State :=
  { v with code := code, valid := valid, epoch := v.epoch + 1 }

theorem State.commit_within {v : State} (h : v.bufLock = .free) (cw : HostWord) (k : Nat) (evs : List Event)
    (code : Vector Code 8) (valid : BitVec 8) :
    (v.within cw k evs).commit code valid =
      (v.committed code valid).within cw k (evs ++ [.commit (v.committed code valid).lanes valid]) := by
  have hfree : { v.committed code valid with bufLock := .free } = v.committed code valid := by
    simp [State.committed, ← h]
  exact (State.emit_within { v.committed code valid with bufLock := .free } cw k evs _).trans (by rw [hfree]; rfl)

/-- A step that commits and then responds. -/
theorem State.Calm.commits {op : SeqOp} {v u : State} (h : v.Calm) {cw : HostWord} {k : Nat} {evs : List Event}
    {code : Vector Code 8} {valid : BitVec 8} {r : Response} (hlock : u.bufLock = .free)
    (hstep : op.step k (v.within cw k evs) = noFrame (((u.within cw k evs).commit code valid).respondP r)) :
    op.Leads 1 (v.within cw k evs)
      ((u.committed code valid).answered cw k r (evs ++ [.commit (u.committed code valid).lanes valid])) := by
  rw [State.commit_within hlock] at hstep
  exact State.respondP_within _ _ _ _ _ ▸ h.goes hstep

/-- What the owner sees of the buffer is what a reader of it sees (R38). -/
theorem State.lanes_of_view {t u : State} (h : t.ownerView = u) : t.lanes = u.lanes ∧ t.valid = u.valid := by
  subst h
  exact ⟨rfl, rfl⟩

/-! ## READ_CH (R200) -/

theorem hostWordOf_readCh (ch : Byte) : hostWordOf (.readCh ch) = 0x60#8 ++ ch ++ 0x0000#16 := hostWord_append 6 ch 0

/-- The step list of a READ_CH with a legal channel. -/
def readChLegalOp (c : Chan) : SeqOp where
  steps := 5
  step := readChStep c
  reply := readChReply c

theorem readChOp_legal {ch : Byte} {c : Chan} (h : ch.toNat = c.val) : readChOp ch = readChLegalOp c := by
  simp [readChOp, chan?_some h, readChLegalOp]

/-- `v` with channel `c` selected for a READ_CH: its staged code is dropped, and the sequence is no longer armed. -/
def State.selecting (v : State) (c : Chan) : State := { v with autoArmed := false, svalid := clearFlag v.svalid c }

/-- `v` after the select frame, which BUS completed with `rx`, but for its event (R201). -/
def State.selected (v : State) (c : Chan) (rx : BitVec 32) (b : List BusAnswer) : State :=
  (v.selecting c).completed .transact .w32 (cmdFrame v.cfg.opcManCh[c]) rx b

theorem State.Calm.selected {v : State} (h : v.Calm) (c : Chan) (rx : BitVec 32) (b : List BusAnswer) :
    (v.selected c rx b).Calm := State.Calm.completed (v := v.selecting c) h.set _ _ _ _ _

section
variable {v : State} (h : v.Calm) (hlock : v.bufLock = .free) (hdrv : v.drvState = .ready) (cw : HostWord) (c : Chan)
include h

include hlock in
/-- Step F. -/
theorem readChLegalOp_fails (evs : List Event) :
    (readChLegalOp c).Leads 1 (v.within cw 4 evs)
      ((v.committed v.code (clearFlag v.valid c)).answered cw 4 (Response.error .busFault)
        (evs ++ [.commit (v.committed v.code (clearFlag v.valid c)).lanes (clearFlag v.valid c)])) :=
  h.commits hlock rfl

include hdrv

/-- Step 0. -/
theorem readChLegalOp_starts : (readChLegalOp c).Leads 1 (v.acceptP cw) (v.within cw 1 []) :=
  h.goes (k := 0) (evs := []) (congrArg noFrame (if_pos hdrv))

include hlock in
theorem readChLegalOp_firstFaults {a : BusAnswer} {b : List BusAnswer} (hbus : v.busIn = a :: b)
    (hfault : a.isFault = true) :
    let u := (v.selecting c).faulted .transact .w32 (cmdFrame v.cfg.opcManCh[c]) a b
    (readChLegalOp c).run seqFuel (v.acceptP cw) =
      (u.committed v.code (clearFlag v.valid c)).answered cw 4 (Response.error .busFault)
        [a.faultEvent .w32 (cmdFrame v.cfg.opcManCh[c]),
          .commit (u.committed v.code (clearFlag v.valid c)).lanes (clearFlag v.valid c)] := by
  intro u
  have hu : u.Calm := State.Calm.faulted (v := v.selecting c) h.set _ _ _ _ _
  have hframe : (readChLegalOp c).Leads 1 (v.within cw 1 [])
      (u.within cw 4 [a.faultEvent .w32 (cmdFrame v.cfg.opcManCh[c])]) :=
    h.faults (u := v.selecting c) rfl (Width.trunc_w32 _) hbus hfault rfl
  exact ((readChLegalOp_starts h hdrv cw c).trans (hframe.trans (readChLegalOp_fails hu hlock cw c _))).ends

section
variable {a₁ a₂ : BusAnswer} {b : List BusAnswer} {rx₁ : BitVec 32}
variable (hbus : v.busIn = a₁ :: a₂ :: b) (hrx₁ : a₁.word v.dev .w32 = some rx₁)
include hbus hrx₁

/-- Steps 0 and 1, where BUS completes the select frame: its response is dropped (R201). -/
theorem readChLegalOp_selects :
    (readChLegalOp c).Leads 2 (v.acceptP cw)
      ((v.selected c rx₁ (a₂ :: b)).within cw 2 [.frame .w32 (cmdFrame v.cfg.opcManCh[c]) (.rxOk rx₁)]) :=
  (readChLegalOp_starts h hdrv cw c).trans (h.commands (u := v.selecting c) rfl hbus hrx₁ rfl)

include hlock in
theorem readChLegalOp_completes {rx₂ : BitVec 32}
    (hrx₂ : a₂.word (v.dev.receive v.cfg .w32 (cmdFrame v.cfg.opcManCh[c])) .w32 = some rx₂) :
    let u := (v.selected c rx₁ (a₂ :: b)).completed .transact .w32 (cmdFrame v.cfg.opcNoOp) rx₂ b
    let x := (u.capture c rx₂).committed (v.code.set c (rx₂.extractLsb' 0 16)) (setFlag v.valid c)
    (readChLegalOp c).run seqFuel (v.acceptP cw) =
      x.answered cw 3 (Response.scalar (rx₂.extractLsb' 0 16))
        [.frame .w32 (cmdFrame v.cfg.opcManCh[c]) (.rxOk rx₁), .frame .w32 (cmdFrame v.cfg.opcNoOp) (.rxOk rx₂),
          .commit x.lanes (setFlag v.valid c)] := by
  intro u x
  have hselected := readChLegalOp_selects h hdrv cw c hbus hrx₁
  have hcalm := h.selected c rx₁ (a₂ :: b)
  have hu : (u.capture c rx₂).Calm := ⟨h.slots, rfl⟩
  have hframe : ∀ evs, (readChLegalOp c).Leads 1 ((v.selected c rx₁ (a₂ :: b)).within cw 2 evs)
      ((u.capture c rx₂).within cw 3 (evs ++ [.frame .w32 (cmdFrame v.cfg.opcNoOp) (.rxOk rx₂)])) :=
    fun _ => hcalm.commands rfl rfl hrx₂ rfl
  have hstaged : (u.capture c rx₂).stage[c] = rx₂.extractLsb' 0 16 := by simp [State.capture]
  have hcommit : ∀ evs, (readChLegalOp c).Leads 1 ((u.capture c rx₂).within cw 3 evs)
      (x.answered cw 3 (Response.scalar (rx₂.extractLsb' 0 16)) (evs ++ [.commit x.lanes (setFlag v.valid c)])) :=
    fun evs => hu.commits hlock (hstaged ▸ rfl)
  exact (hselected.trans ((hframe _).trans (hcommit _))).ends

include hlock in
theorem readChLegalOp_secondFaults (hfault : a₂.isFault = true) :
    let u := (v.selected c rx₁ (a₂ :: b)).faulted .transact .w32 (cmdFrame v.cfg.opcNoOp) a₂ b
    (readChLegalOp c).run seqFuel (v.acceptP cw) =
      (u.committed v.code (clearFlag v.valid c)).answered cw 4 (Response.error .busFault)
        [.frame .w32 (cmdFrame v.cfg.opcManCh[c]) (.rxOk rx₁), a₂.faultEvent .w32 (cmdFrame v.cfg.opcNoOp),
          .commit (u.committed v.code (clearFlag v.valid c)).lanes (clearFlag v.valid c)] := by
  intro u
  have hselected := readChLegalOp_selects h hdrv cw c hbus hrx₁
  have hcalm := h.selected c rx₁ (a₂ :: b)
  have hu : u.Calm := hcalm.faulted _ _ _ _ _
  have hframe : ∀ evs, (readChLegalOp c).Leads 1 ((v.selected c rx₁ (a₂ :: b)).within cw 2 evs)
      (u.within cw 4 (evs ++ [a₂.faultEvent .w32 (cmdFrame v.cfg.opcNoOp)])) :=
    fun _ => hcalm.faults rfl (Width.trunc_w32 _) rfl hfault rfl
  exact (hselected.trans ((hframe _).trans (readChLegalOp_fails hu hlock cw c _))).ends

end

end

/-- Settles O26: the select frame's response is dropped, the second frame's is staged, committed and returned. -/
theorem readChannelReturnsTheSecondResult : Obligations.ReadChannelReturnsTheSecondResult := by
  intro s ch c rx₁ rx₂ d b hport hidle hlock hrst hdrv hch hex
  have hacc : s.Accepts := ⟨hport, hidle, hlock, hrst⟩
  obtain ⟨t, hexec, hview⟩ := hacc.exec_view (i := .readCh ch) (congrArg some (readChOp_legal hch))
  obtain ⟨a₁, a₂, hbus, hrx₁, hrx₂, rfl⟩ := exchange_pair hex
  have hrun := hview.trans (readChLegalOp_completes hacc.calm hlock hdrv _ c hbus hrx₁ hrx₂)
  obtain ⟨hlanes, hvalid⟩ := State.lanes_of_view hrun
  refine ⟨t, hexec, hrun.trans ?_⟩
  rw [hlanes, hvalid, ← hostWordOf_readCh, ← setFlag_clearFlag s.svalid]
  rfl

/-- Settles O27: a fault at either frame leads to step F. -/
theorem faultedReadChannelIsMissing : Obligations.FaultedReadChannelIsMissing := by
  intro s ch c hport hidle hlock hrst hdrv hch
  have hacc : s.Accepts := ⟨hport, hidle, hlock, hrst⟩
  obtain ⟨t, hexec, hview⟩ := hacc.exec_view (i := .readCh ch) (congrArg some (readChOp_legal hch))
  refine ⟨fun a b hbus hfault => ?_, fun a₁ rx₁ a₂ b hbus hrx₁ hfault => ?_⟩
  · have hrun := hview.trans (readChLegalOp_firstFaults hacc.calm hlock hdrv _ c hbus hfault)
    obtain ⟨hlanes, hvalid⟩ := State.lanes_of_view hrun
    refine ⟨t, hexec, hrun.trans ?_⟩
    rw [hlanes, hvalid, ← hostWordOf_readCh]
    rfl
  · have hrun := hview.trans (readChLegalOp_secondFaults hacc.calm hlock hdrv _ c hbus hrx₁ hfault)
    obtain ⟨hlanes, hvalid⟩ := State.lanes_of_view hrun
    refine ⟨t, hexec, hrun.trans ?_⟩
    rw [hlanes, hvalid, ← hostWordOf_readCh]
    rfl

/-! ## GET_CODES (R220) -/

/-- Lane `c` of a response's data is the c-th of the codes packed into it (R100). -/
theorem laneOf_packLanes (v : Vector Code 8) (c : Chan) : laneOf (packLanes v) c = v[c] := by
  unfold laneOf packLanes
  fin_cases c <;>
    simp [-Nat.reduceAdd, BitVec.extractLsb'_append_eq_of_le, BitVec.extractLsb'_append_eq_of_add_le]

/-- A lane whose channel is valid shows the channel's code (R46). -/
theorem State.lanes_of_valid (s : State) {c : Chan} (h : flag s.valid c = true) : s.lanes[c] = s.code[c] := by
  simp [State.lanes, h]

theorem State.getCodesC_eq (s : State) (cw : HostWord) :
    s.getCodesC cw = { s with
      bufLock := .free, cResp := some ⟨.ok, s.valid, packLanes s.lanes⟩,
      hist := s.hist ++
        [.op .C cw, .snapshot .C s.lanes s.valid, .resp .C ⟨.ok, s.valid, packLanes s.lanes⟩] } := by
  simp only [State.getCodesC, State.snapshot, State.respondC, State.emit, List.append_assoc, List.cons_append,
    List.nil_append]
  rfl

/-- The one step of GET_CODES on port P. -/
theorem getCodesOp_answers {v : State} (h : v.Calm) (hlock : v.bufLock = .free) (cw : HostWord) :
    getCodesOp.run seqFuel (v.acceptP cw) =
      v.answered cw 0 ⟨.ok, v.valid, packLanes v.lanes⟩ [.snapshot .P v.lanes v.valid] := by
  have hfree : ({ v with bufLock := .free } : State) = v := by simp [← hlock]
  have hstep : getCodesOp.Leads 1 (v.within cw 0 []) _ :=
    h.goes (congrArg (fun t : State => noFrame (t.respondP ⟨.ok, v.valid, packLanes v.lanes⟩))
      (State.emit_within { v with bufLock := .free } cw 0 [] (.snapshot .P v.lanes v.valid)))
  rw [hfree, State.respondP_within] at hstep
  exact hstep.ends

/-- Settles O31: one snapshot on either port, and what a lane of it is. -/
theorem getCodesAnswersTheBuffer : Obligations.GetCodesAnswersTheBuffer := by
  refine ⟨fun s hport hidle hlock hrst => ?_, fun s hport => ?_, fun s c hvalid => ?_⟩
  · have hacc : s.Accepts := ⟨hport, hidle, hlock, hrst⟩
    obtain ⟨t, hexec, hview⟩ := hacc.exec_view (i := .getCodes) rfl
    exact ⟨t, hexec, hview.trans (getCodesOp_answers hacc.calm hlock _)⟩
  · simp only [exec, execGetCodes, hport, State.getCodesC_eq]
    rfl
  · rw [laneOf_packLanes, State.lanes_of_valid s hvalid]

end Sys2Proof.Machine
end

section
/-! PROOFS. The passes of SCAN_ALL under both strategies (42_driver_scan.md: R205 to R217): the words received by the
frames of steps 2 to 9 fill the lanes in order, up to the last step or to a fault. -/

namespace Sys2Proof.Machine

open Sys2Proof

/-! ## Result words in lanes (R206, R211) -/

theorem chanOf_val {n : Nat} (h : n < 8) : (chanOf n).val = n := Nat.mod_eq_of_lt h

theorem overlay_nil (v : Vector Code 8) : overlay v [] = v := by
  ext i hi : 1
  simp [overlay]

/-- The next result word goes in the next lane. -/
theorem overlay_concat (v : Vector Code 8) {rs : List (BitVec 32)} (h : rs.length < 8) (rx : BitVec 32) :
    (overlay v rs).set (chanOf rs.length) (rx.extractLsb' 0 16) = overlay v (rs ++ [rx]) := by
  ext i hi : 1
  simp only [overlay, Vector.getElem_set, Vector.getElem_ofFn, chanOf_val h, List.length_append, List.length_singleton]
  rcases lt_trichotomy i rs.length with hlt | rfl | hgt
  · simp [hlt, hlt.ne', Nat.lt_succ_of_lt hlt]
  · simp
  · simp [hgt.ne, Nat.not_lt_of_gt hgt, Nat.not_lt.mpr (Nat.succ_le_of_lt hgt)]

theorem overlay_full (v : Vector Code 8) {rs : List (BitVec 32)} (h : rs.length = 8) :
    overlay v rs = resultLanes rs := by
  ext i hi : 1
  simp [overlay, resultLanes, h]

theorem flag_firstFlags {n : Nat} (h : n ≤ 8) (c : Chan) : flag (firstFlags n) c = decide (c.val < n) := by
  revert c
  interval_cases n <;> decide

theorem setFlag_firstFlags {n : Nat} (h : n < 8) : setFlag (firstFlags n) (chanOf n) = firstFlags (n + 1) := by
  interval_cases n <;> decide

/-! ## A pass in progress -/

/-- `v` with the result words `rs` captured in the fresh buffer, and AUTO_ARMED `armed` (R205, R211). -/
def State.passing (v : State) (armed : Bool) (rs : List (BitVec 32)) : State :=
  { v with autoArmed := armed, stage := overlay v.stage rs, svalid := firstFlags rs.length }

theorem State.capture_passing (v : State) (armed : Bool) {rs : List (BitVec 32)} (h : rs.length < 8) (rx : BitVec 32) :
    (v.passing armed rs).capture (chanOf rs.length) rx = v.passing armed (rs ++ [rx]) := by
  simp only [State.capture, State.passing, overlay_concat v.stage h, setFlag_firstFlags h, List.length_append,
    List.length_singleton]

section
variable (v : State) (armed : Bool) {rs : List (BitVec 32)} (h : rs.length ≤ 8)
include h

theorem State.staged_passing : (v.passing armed rs).staged = overlay v.code rs := by
  ext i hi : 1
  have hflag := flag_firstFlags h ⟨i, hi⟩
  by_cases hlt : i < rs.length <;> simp [State.staged, State.passing, overlay, hflag, hlt]

theorem State.captured_passing : (v.passing armed rs).captured = overlay (Vector.replicate 8 0) rs := by
  ext i hi : 1
  have hflag := flag_firstFlags h ⟨i, hi⟩
  by_cases hlt : i < rs.length <;> simp [State.captured, State.passing, overlay, hflag, hlt]

end

/-- `v` after the commit of a pass with the result words `rs`, but for its event (R211). -/
def State.passCommitted (v : State) (armed : Bool) (rs : List (BitVec 32)) : State :=
  (v.passing armed rs).committed (overlay v.code rs) (firstFlags rs.length)

theorem State.passed_eq {v : State} (h : v.bufLock = .free) (rs : List (BitVec 32)) :
    v.passed rs = v.passCommitted v.autoArmed rs := by
  simp [State.passed, State.passCommitted, State.passing, State.committed, ← h]

theorem State.passCommitted_full (v : State) (armed : Bool) {rs : List (BitVec 32)} (h : rs.length = 8) :
    v.passCommitted armed rs =
      { v with
        autoArmed := armed, stage := resultLanes rs, svalid := 0xFF, code := resultLanes rs, valid := 0xFF,
        epoch := v.epoch + 1 } := by
  simp only [State.passCommitted, State.passing, State.committed, overlay_full _ h, h]
  rfl

theorem State.passCommitted_lanes (v : State) (armed : Bool) {rs : List (BitVec 32)} (h : rs.length = 8) :
    (v.passCommitted armed rs).lanes = resultLanes rs := by
  rw [v.passCommitted_full armed h]
  ext i hi : 1
  exact State.lanes_of_valid _ (c := ⟨i, hi⟩) (flag_firstFlags le_rfl ⟨i, hi⟩ ▸ decide_eq_true hi)

/-- AUTO_ARMED where SEQ stands at step `k` of the pass: a restart arms the sequence, step 2 disarms it (R214, R215). -/
def State.armedAt (v : State) (k : Nat) : Bool :=
  match v.straps.strategy with
  | .manual => v.autoArmed
  | .autoSeq => decide (k = 2 ∨ k = 10)

/-- AUTO_ARMED while a frame of the pass is on the bus. -/
def State.armedWhile (v : State) : Bool :=
  match v.straps.strategy with
  | .manual => v.autoArmed
  | .autoSeq => false

section
variable {s : State}

theorem scanAllOp_step_manual (h : s.straps.strategy = .manual) (k : Nat) :
    scanAllOp.step k s = scanManualStep k s := by
  simp only [scanAllOp, h]

theorem scanAllOp_step_autoSeq (h : s.straps.strategy = .autoSeq) (k : Nat) :
    scanAllOp.step k s = scanAutoStep k s := by
  simp only [scanAllOp, h]

theorem scanAllOp_reply_manual (h : s.straps.strategy = .manual) (k : Nat) (r : FtReply) :
    scanAllOp.reply k r s = scanManualReply k r s := by
  simp only [scanAllOp, h]

theorem scanAllOp_reply_autoSeq (h : s.straps.strategy = .autoSeq) (k : Nat) (r : FtReply) :
    scanAllOp.reply k r s = scanAutoReply k r s := by
  simp only [scanAllOp, h]

/-- A step that is the same under both strategies. -/
theorem scanAllOp_step_both {k : Nat} {x : State × Option FtReply} (hman : scanManualStep k s = x)
    (hauto : scanAutoStep k s = x) : scanAllOp.step k s = x := by
  cases hst : s.straps.strategy with
  | manual => exact (scanAllOp_step_manual hst k).trans hman
  | autoSeq => exact (scanAllOp_step_autoSeq hst k).trans hauto

/-- A fault leads to step F. -/
theorem scanAllOp_reply_fault (k : Nat) (s : State) : scanAllOp.reply k ⟨.busFault, 0⟩ s = s.goto 11 := by
  cases hst : s.straps.strategy with
  | manual => rw [scanAllOp_reply_manual hst]; rfl
  | autoSeq => rw [scanAllOp_reply_autoSeq hst]; rfl

end

/-! ## The frames of a pass -/

/-- The command that step `k` of a pass sends (R208, R213). -/
def passCommand (c : Config) : Strategy → Nat → BitVec 16
  | .manual, k => if k = 9 then c.opcNoOp else c.opcManCh[chanOf (k - 1)]
  | .autoSeq, k => if k = 1 ∨ k = 9 then c.opcAutoRst else c.opcNoOp

/-- The frames of the `n` steps of a pass from step `k` on. -/
def stepFrames (c : Config) (st : Strategy) (k n : Nat) : List FrameReq :=
  (List.range' k n).map fun j => cmdReq (passCommand c st j)

/-- The step of the pass's first frame: an armed pass skips the priming frame of step 1 (R214). -/
def State.firstStep (v : State) : Nat := 2 - v.primingFrames

/-- A pass has no priming frame, and begins at step 2, only where it is armed; otherwise it begins at step 1. -/
theorem State.firstStep_cases (v : State) :
    (v.straps.strategy = .autoSeq ∧ v.autoArmed = true ∧ v.primingFrames = 0 ∧ v.firstStep = 2) ∨
    (v.autoArmed = v.armedAt 1 ∧ v.primingFrames = 1 ∧ v.firstStep = 1) := by
  cases hst : v.straps.strategy <;> cases harmed : v.autoArmed <;>
    simp [State.primingFrames, State.firstStep, State.armedAt, hst, harmed]

theorem State.firstStep_add_primingFrames (v : State) : v.firstStep + v.primingFrames = 2 := by
  rcases v.firstStep_cases with ⟨_, _, hpriming, hfirst⟩ | ⟨_, hpriming, hfirst⟩ <;> rw [hpriming, hfirst]

theorem State.firstStep_pos (v : State) : 1 ≤ v.firstStep := by
  rcases v.firstStep_cases with ⟨_, _, _, hfirst⟩ | ⟨_, _, hfirst⟩ <;> rw [hfirst]
  decide

/-- The pass's frames are those of the steps from its first to step 9. -/
theorem State.passFrames_eq (v : State) :
    v.passFrames = stepFrames v.cfg v.straps.strategy v.firstStep (10 - v.firstStep) := by
  cases hst : v.straps.strategy <;> cases harmed : v.autoArmed <;>
    simp only [State.passFrames, State.firstStep, State.primingFrames, hst, harmed] <;> rfl

theorem stepFrames_getElem? {c : Config} {st : Strategy} {k n m : Nat} {f : FrameReq}
    (h : (stepFrames c st k n)[m]? = some f) : m < n ∧ f = cmdReq (passCommand c st (k + m)) := by
  simp only [stepFrames, List.getElem?_map, Option.map_eq_some_iff, List.getElem?_eq_some_iff, List.length_range',
    List.getElem_range', Nat.one_mul] at h
  obtain ⟨_, ⟨hm, rfl⟩, rfl⟩ := h
  exact ⟨hm, rfl⟩

theorem stepFrames_length (c : Config) (st : Strategy) (k n : Nat) : (stepFrames c st k n).length = n := by
  simp [stepFrames]

theorem stepFrames_take (c : Config) (st : Strategy) (k : Nat) {m n : Nat} (h : m ≤ n) :
    (stepFrames c st k n).take m = stepFrames c st k m := by
  obtain ⟨n, rfl⟩ := Nat.exists_eq_add_of_le h
  have happend : stepFrames c st k (m + n) = stepFrames c st k m ++ stepFrames c st (k + m) n := by
    simp [stepFrames, ← List.map_append]
  rw [happend, List.take_left' (stepFrames_length c st k m)]

theorem stepFrames_concat (c : Config) (st : Strategy) (k n : Nat) :
    stepFrames c st k (n + 1) = stepFrames c st k n ++ [cmdReq (passCommand c st (k + n))] := by
  simp [stepFrames, List.range'_concat]

theorem frameEvents_stepFrames (c : Config) (st : Strategy) (k n : Nat) (rx : BitVec 32) (rxs : List (BitVec 32)) :
    frameEvents (stepFrames c st k (n + 1)) (rx :: rxs) =
      .frame .w32 (cmdFrame (passCommand c st k)) (.rxOk rx) :: frameEvents (stepFrames c st (k + 1) n) rxs :=
  congrArg (fun x => Event.frame .w32 (cmdFrame (passCommand c st k)) (.rxOk x) :: _) (Width.trunc_w32 rx)

/-- FT after frames that BUS completed (R131). -/
def ftAfterFrames (ft : Ft) (fs : List FrameReq) (rs : List (BitVec 32)) : Ft :=
  (fs.zip rs).foldl (fun _ x => Ft.afterFrame .transact x.1.1 x.1.2 x.2 x.1.1.bits) ft

theorem ftAfterFrames_idle {ft : Ft} (h : ft.state = .idle) (fs : List FrameReq) (rs : List (BitVec 32)) :
    (ftAfterFrames ft fs rs).state = .idle :=
  List.foldlRecOn (fs.zip rs) _ (motive := fun ft : Ft => ft.state = .idle) h fun _ _ _ _ => rfl

/-- The last frame decides. -/
theorem ftAfterFrames_concat (ft : Ft) (fs : List FrameReq) (f : FrameReq) {rs : List (BitVec 32)}
    (h : rs.length = fs.length + 1) :
    ftAfterFrames ft (fs ++ [f]) rs = Ft.afterFrame .transact f.1 f.2 (rs.getD fs.length 0) f.1.bits := by
  induction fs generalizing ft rs with
  | nil =>
    obtain ⟨rx, rfl⟩ := List.length_eq_one_iff.mp h
    rfl
  | cons g fs ih =>
    obtain ⟨rx, rs, rfl⟩ := List.exists_of_length_succ rs h
    exact ih _ (Nat.succ.inj h)

theorem exchange_length {c : Config} {d d' : Dev} {fs : List FrameReq} {bs b : List BusAnswer} {rs : List (BitVec 32)}
    (h : exchange c d fs bs = some (rs, d', b)) : rs.length = fs.length := by
  induction fs generalizing d bs rs with
  | nil => cases h; rfl
  | cons f fs ih =>
    obtain ⟨_, _, _, rs, rfl, _, hrest, rfl⟩ := exchange_cons h
    exact congrArg (· + 1) (ih hrest)

/-- `v` after frames that BUS completed, DEV then being `d`, but for their events. -/
def State.allCompleted (v : State) (fs : List FrameReq) (rs : List (BitVec 32)) (d : Dev) (b : List BusAnswer) :
    State :=
  { v with busIn := b, dev := d, ft := ftAfterFrames v.ft fs rs }

/-! ## The steps of a pass -/

section
variable (v : State) (cw : HostWord) (evs : List Event)

/-- Steps 1 to 9 send their command, the sequence not armed meanwhile. -/
theorem scanAllOp_sends {k : Nat} (h1 : 1 ≤ k) (h9 : k ≤ 9) (rs : List (BitVec 32)) :
    scanAllOp.step k ((v.passing (v.armedAt k) rs).within cw k evs) =
      ((v.passing v.armedWhile rs).within cw k evs).command (passCommand v.cfg v.straps.strategy k) := by
  cases hst : v.straps.strategy with
  | manual =>
    rw [scanAllOp_step_manual (s := (v.passing _ _).within _ _ _) hst]
    simp only [State.armedAt, State.armedWhile, hst]
    interval_cases k <;> rfl
  | autoSeq =>
    rw [scanAllOp_step_autoSeq (s := (v.passing _ _).within _ _ _) hst]
    simp only [State.armedAt, State.armedWhile, hst]
    interval_cases k <;> rfl

/-- The priming frame's response is dropped (R207). -/
theorem scanAllOp_primes (rx : BitVec 32) :
    scanAllOp.reply 1 ⟨.ok, rx⟩ ((v.passing v.armedWhile []).within cw 1 evs) =
      (v.passing (v.armedAt 2) []).within cw 2 evs := by
  cases hst : v.straps.strategy with
  | manual =>
    rw [scanAllOp_reply_manual (s := (v.passing _ _).within _ _ _) hst]
    simp only [State.armedAt, State.armedWhile, hst]
    rfl
  | autoSeq =>
    rw [scanAllOp_reply_autoSeq (s := (v.passing _ _).within _ _ _) hst]
    simp only [State.armedAt, State.armedWhile, hst]
    rfl

/-- The response of step `j + 2` is captured as channel `j`'s result (R207). -/
theorem scanAllOp_captures {k : Nat} {rs : List (BitVec 32)} (hk : k = rs.length + 2) (hk9 : k ≤ 9) (rx : BitVec 32) :
    scanAllOp.reply k ⟨.ok, rx⟩ ((v.passing v.armedWhile rs).within cw k evs) =
      (v.passing (v.armedAt (k + 1)) (rs ++ [rx])).within cw (k + 1) evs := by
  have hcapture : ((v.passing v.armedWhile rs).within cw k evs).capture (chanOf rs.length) rx =
      (v.passing v.armedWhile (rs ++ [rx])).within cw k evs :=
    congrArg (State.within · cw k evs) (v.capture_passing v.armedWhile (by omega) rx)
  have hchan : k - 2 = rs.length := by omega
  have hfirst : k ≠ 1 := by omega
  cases hst : v.straps.strategy with
  | manual =>
    rw [scanAllOp_reply_manual (s := (v.passing _ _).within _ _ _) hst, scanManualReply, if_pos rfl, if_neg hfirst,
      hchan, hcapture]
    simp only [State.armedAt, State.armedWhile, hst]
    rfl
  | autoSeq =>
    rw [scanAllOp_reply_autoSeq (s := (v.passing _ _).within _ _ _) hst, scanAutoReply, if_pos rfl, if_neg hfirst]
    by_cases hlast : k = 9
    · rw [if_pos hlast, show (7 : Chan) = chanOf rs.length by rw [← hchan, hlast]; rfl, hcapture]
      simp only [State.armedAt, hst, hlast]
      rfl
    · rw [if_neg hlast, hchan, hcapture]
      have harmed : v.armedAt (k + 1) = v.armedWhile := by
        simp only [State.armedAt, State.armedWhile, hst, decide_eq_false_iff_not]
        omega
      rw [harmed]
      rfl

end

section
variable {v : State} (h : v.Calm) (cw : HostWord)
include h

/-- Step 0, and step 1 of an armed pass, which has no priming frame (R205, R214). -/
theorem scanAllOp_starts (hdrv : v.drvState = .ready) :
    scanAllOp.Leads v.firstStep (v.acceptP cw)
      ((v.passing (v.armedAt v.firstStep) []).within cw v.firstStep []) := by
  have hfresh : v.passing v.autoArmed [] = { v with svalid := 0 } := by
    simp only [State.passing, overlay_nil]; rfl
  have hstart : scanAllOp.Leads 1 (v.within cw 0 []) ((v.passing v.autoArmed []).within cw 1 []) := by
    rw [hfresh]
    have hready : noFrame (scanStart (v.within cw 0 [])) = _ := congrArg noFrame (if_pos hdrv)
    exact h.goes (scanAllOp_step_both hready hready)
  rcases v.firstStep_cases with ⟨hst, harmed, _, hfirst⟩ | ⟨harmed, _, hfirst⟩
  · have hskip : scanAllOp.Leads 1 ((v.passing v.autoArmed []).within cw 1 [])
        ((v.passing v.autoArmed []).within cw 2 []) :=
      State.Calm.goes (v := v.passing _ _) h.set
        ((scanAllOp_step_autoSeq (s := (v.passing _ _).within _ _ _) hst 1).trans (if_pos harmed))
    have hat : v.armedAt 2 = v.autoArmed := by simp [State.armedAt, hst, harmed]
    rw [hfirst, hat]
    exact hstart.trans hskip
  · rw [hfirst, ← harmed]
    exact hstart

/-- Some steps from step `k = rs.length + 2` on, whose frames BUS completes. -/
theorem scanAllOp_gathers {k n : Nat} {rs rxs : List (BitVec 32)} {evs : List Event} {d : Dev} {b : List BusAnswer}
    (hk : k = rs.length + 2) (hn : k + n ≤ 10)
    (hex : exchange v.cfg v.dev (stepFrames v.cfg v.straps.strategy k n) v.busIn = some (rxs, d, b)) :
    scanAllOp.Leads n ((v.passing (v.armedAt k) rs).within cw k evs)
      (((v.allCompleted (stepFrames v.cfg v.straps.strategy k n) rxs d b).passing (v.armedAt (k + n))
          (rs ++ rxs)).within cw (k + n) (evs ++ frameEvents (stepFrames v.cfg v.straps.strategy k n) rxs)) := by
  induction n generalizing v k rs rxs evs with
  | zero =>
    cases hex
    rw [List.append_nil, show frameEvents _ [] = [] from List.zipWith_nil_right, List.append_nil]
    exact fun _ => rfl
  | succ n ih =>
    obtain ⟨a, bs, rx, rxs, hbus, hrx, hrest, rfl⟩ := exchange_cons hex
    let u : State := v.completed .transact .w32 (cmdFrame (passCommand v.cfg v.straps.strategy k)) rx bs
    have hu : u.Calm := h.completed _ _ _ _ _
    have hstep : ∀ evs, scanAllOp.Leads 1 ((v.passing (v.armedAt k) rs).within cw k evs)
        ((u.passing (u.armedAt (k + 1)) (rs ++ [rx])).within cw (k + 1)
          (evs ++ [.frame .w32 (cmdFrame (passCommand v.cfg v.straps.strategy k)) (.rxOk rx)])) := fun _ =>
      State.Calm.commands (v := v.passing _ rs) h.set (scanAllOp_sends v cw _ (by omega) (by omega) rs) hbus hrx
        (scanAllOp_captures u cw _ hk (by omega) rx)
    have hrun := (hstep evs).trans (ih hu (k := k + 1) (by simp [hk]) (by omega) hrest)
    rw [frameEvents_stepFrames]
    simp only [List.append_assoc, List.singleton_append, Nat.add_right_comm k 1] at hrun
    exact hrun

/-- A pass up to any of its steps, where BUS completes the frames before it: the priming frame's response is dropped. -/
theorem scanAllOp_passes (hdrv : v.drvState = .ready) {m : Nat} {rs : List (BitVec 32)} {d : Dev} {b : List BusAnswer}
    (hm : v.firstStep + m ≤ 10)
    (hex : exchange v.cfg v.dev (stepFrames v.cfg v.straps.strategy v.firstStep m) v.busIn = some (rs, d, b)) :
    scanAllOp.Leads (m + v.firstStep) (v.acceptP cw)
      (((v.allCompleted (stepFrames v.cfg v.straps.strategy v.firstStep m) rs d b).passing (v.armedAt (v.firstStep + m))
          (rs.drop v.primingFrames)).within cw (v.firstStep + m)
        (frameEvents (stepFrames v.cfg v.straps.strategy v.firstStep m) rs)) := by
  refine (scanAllOp_starts h cw hdrv).trans ?_
  rcases v.firstStep_cases with ⟨_, _, hpriming, hfirst⟩ | ⟨_, hpriming, hfirst⟩ <;>
    rw [hfirst] at hm hex ⊢ <;> rw [hpriming]
  · exact scanAllOp_gathers h cw (rs := []) rfl hm hex
  · cases m with
    | zero =>
      cases hex
      exact fun _ => rfl
    | succ m =>
      obtain ⟨a, bs, rx, rxs, hbus, hrx, hrest, rfl⟩ := exchange_cons hex
      let u : State := v.completed .transact .w32 (cmdFrame (passCommand v.cfg v.straps.strategy 1)) rx bs
      have hu : u.Calm := h.completed _ _ _ _ _
      have hprime : scanAllOp.Leads 1 ((v.passing (v.armedAt 1) []).within cw 1 [])
          ((u.passing (u.armedAt 2) []).within cw 2
            [.frame .w32 (cmdFrame (passCommand v.cfg v.straps.strategy 1)) (.rxOk rx)]) :=
        State.Calm.commands (v := v.passing _ []) h.set (scanAllOp_sends v cw [] le_rfl (by decide) []) hbus hrx
          (scanAllOp_primes u cw _ rx)
      have hrun := hprime.trans (scanAllOp_gathers hu cw (rs := []) (k := 2) rfl (by omega) hrest)
      rw [frameEvents_stepFrames, show 1 + (m + 1) = 2 + m by omega]
      exact hrun

section
variable (hlock : v.bufLock = .free)
include hlock

/-- A step of the pass that commits what was captured and answers it (R211, R216). -/
theorem scanAllOp_commits {k : Nat} {armed armed' : Bool} {rs : List (BitVec 32)} (hrs : rs.length ≤ 8) {st : Status}
    {evs : List Event}
    (hstep : scanAllOp.step k ((v.passing armed rs).within cw k evs) =
      noFrame (((v.passing armed' rs).within cw k evs).commitPass.respondP
        ⟨st, firstFlags rs.length, packLanes (v.passing armed' rs).captured⟩)) :
    scanAllOp.Leads 1 ((v.passing armed rs).within cw k evs)
      ((v.passCommitted armed' rs).answered cw k
        ⟨st, firstFlags rs.length, packLanes (overlay (Vector.replicate 8 0) rs)⟩
        (evs ++ [.commit (v.passCommitted armed' rs).lanes (firstFlags rs.length)])) := by
  have hcommit : ((v.passing armed' rs).within cw k evs).commitPass =
      ((v.passing armed' rs).within cw k evs).commit (overlay v.code rs) (firstFlags rs.length) :=
    congrArg (State.commit _ · _) (v.staged_passing armed' hrs)
  rw [hcommit, v.captured_passing armed' hrs] at hstep
  exact State.Calm.commits (v := v.passing armed rs) (u := v.passing armed' rs) h.set hlock hstep

/-- The last step (R208, R211, R213). -/
theorem scanAllOp_done (armed : Bool) {rs : List (BitVec 32)} (hrs : rs.length = 8) (evs : List Event) :
    scanAllOp.Leads 1 ((v.passing armed rs).within cw 10 evs)
      ((v.passCommitted armed rs).answered cw 10 ⟨.ok, 0xFF, packLanes (resultLanes rs)⟩
        (evs ++ [.commit (resultLanes rs) 0xFF])) := by
  have hmask : firstFlags rs.length = 0xFF := by rw [hrs]; rfl
  have hcommits := scanAllOp_commits h cw hlock (armed := armed) (evs := evs) hrs.le
    (scanAllOp_step_both (k := 10) rfl rfl)
  rwa [hmask, overlay_full _ hrs, v.passCommitted_lanes armed hrs] at hcommits

/-- Step F (R216). -/
theorem scanAllOp_fails (armed : Bool) {rs : List (BitVec 32)} (hrs : rs.length ≤ 8) (evs : List Event) :
    scanAllOp.Leads 1 ((v.passing armed rs).within cw 11 evs)
      ((v.passCommitted false rs).answered cw 11
        ⟨.busFault, firstFlags rs.length, packLanes (overlay (Vector.replicate 8 0) rs)⟩
        (evs ++ [.commit (v.passCommitted false rs).lanes (firstFlags rs.length)])) :=
  scanAllOp_commits h cw hlock hrs (scanAllOp_step_both rfl rfl)

variable (hdrv : v.drvState = .ready) {rs : List (BitVec 32)} {d : Dev}
include hdrv

/-- BUS completes all frames of the pass. -/
theorem scanAllOp_completes {b : List BusAnswer} (hex : exchange v.cfg v.dev v.passFrames v.busIn = some (rs, d, b)) :
    scanAllOp.run seqFuel (v.acceptP cw) =
      ({ v with
          autoArmed := v.armedAt 10, stage := resultLanes (rs.drop v.primingFrames), svalid := 0xFF,
          code := resultLanes (rs.drop v.primingFrames), valid := 0xFF, epoch := v.epoch + 1, dev := d, busIn := b,
          ft := Ft.afterFrame .transact .w32 (cmdFrame (passCommand v.cfg v.straps.strategy 9))
            (rs.getD (9 - v.firstStep) 0) 32 } : State).answered cw 10
        ⟨.ok, 0xFF, packLanes (resultLanes (rs.drop v.primingFrames))⟩
        (frameEvents v.passFrames rs ++ [.commit (resultLanes (rs.drop v.primingFrames)) 0xFF]) := by
  have hfirst := v.firstStep_add_primingFrames
  have hsplit : 10 - v.firstStep = 9 - v.firstStep + 1 := by omega
  have hnine : v.firstStep + (9 - v.firstStep) = 9 := by omega
  have hten : v.firstStep + (9 - v.firstStep + 1) = 10 := by omega
  rw [v.passFrames_eq, hsplit] at hex ⊢
  have hlen := (exchange_length hex).trans (stepFrames_length _ _ _ _)
  have hft : ftAfterFrames v.ft (stepFrames v.cfg v.straps.strategy v.firstStep (9 - v.firstStep + 1)) rs =
      Ft.afterFrame .transact .w32 (cmdFrame (passCommand v.cfg v.straps.strategy 9))
        (rs.getD (9 - v.firstStep) 0) 32 := by
    rw [stepFrames_concat, ftAfterFrames_concat _ _ _ (by rwa [stepFrames_length]), stepFrames_length, hnine]
    rfl
  have hkept : (rs.drop v.primingFrames).length = 8 := by rw [List.length_drop]; omega
  have hpass := scanAllOp_passes h cw hdrv hten.le hex
  rw [hten] at hpass
  let u := v.allCompleted (stepFrames v.cfg v.straps.strategy v.firstStep (9 - v.firstStep + 1)) rs d b
  have hu : u.Calm := ⟨h.slots, congrArg Ft.state hft⟩
  rw [(hpass.trans (scanAllOp_done hu cw hlock _ hkept _)).ends (by rw [show seqFuel = 16 from rfl]; omega), ← hft,
    State.passCommitted_full _ _ hkept]
  rfl

/-- BUS completes the frames of the pass up to that of step `firstStep + m`, which faults. -/
theorem scanAllOp_faults {m : Nat} (hm : v.firstStep + m ≤ 9) {a : BusAnswer} {b : List BusAnswer}
    (hex : exchange v.cfg v.dev (stepFrames v.cfg v.straps.strategy v.firstStep m) v.busIn = some (rs, d, a :: b))
    (hfault : a.isFault = true) :
    let tx := cmdFrame (passCommand v.cfg v.straps.strategy (v.firstStep + m))
    let kept := rs.drop v.primingFrames
    let u := (v.allCompleted (stepFrames v.cfg v.straps.strategy v.firstStep m) rs d (a :: b)).faulted
      .transact .w32 tx a b
    scanAllOp.run seqFuel (v.acceptP cw) =
      (u.passCommitted false kept).answered cw 11
        ⟨.busFault, firstFlags kept.length, packLanes (overlay (Vector.replicate 8 0) kept)⟩
        (frameEvents (stepFrames v.cfg v.straps.strategy v.firstStep m) rs ++
          [a.faultEvent .w32 tx, .commit (u.passCommitted false kept).lanes (firstFlags kept.length)]) := by
  intro tx kept u
  have hfirst := v.firstStep_add_primingFrames
  have hpos : 1 ≤ v.firstStep + m := Nat.le_add_right_of_le v.firstStep_pos
  have hlen := (exchange_length hex).trans (stepFrames_length _ _ _ _)
  have hkept : kept.length ≤ 8 := by rw [show kept.length = rs.length - v.primingFrames from List.length_drop]; omega
  let x := v.allCompleted (stepFrames v.cfg v.straps.strategy v.firstStep m) rs d (a :: b)
  have hx : x.Calm := ⟨h.slots, ftAfterFrames_idle h.idle _ _⟩
  have hu : u.Calm := hx.faulted _ _ _ _ _
  have hframe : ∀ evs, scanAllOp.Leads 1
      ((x.passing (x.armedAt (v.firstStep + m)) kept).within cw (v.firstStep + m) evs)
      ((u.passing x.armedWhile kept).within cw 11 (evs ++ [a.faultEvent .w32 tx])) := fun evs =>
    State.Calm.faults (v := x.passing _ kept) hx.set (scanAllOp_sends x cw evs hpos hm kept)
      (Width.trunc_w32 _) rfl hfault (scanAllOp_reply_fault _ _)
  rw [((scanAllOp_passes h cw hdrv (by omega) hex).trans
    ((hframe _).trans (scanAllOp_fails hu cw hlock _ hkept _))).ends (by rw [show seqFuel = 16 from rfl]; omega)]
  simp only [List.append_assoc, List.singleton_append]

end

end

/-! ## SCAN_ALL (R208, R213, R216) -/

/-- Settles O28: a manual pass is primed by its first select frame, and AUTO_ARMED is not written. -/
theorem manualPassCapturesEightResults : Obligations.ManualPassCapturesEightResults := by
  intro s rs d b hport hidle hlock hrst hdrv hman hex
  have hacc : s.Accepts := ⟨hport, hidle, hlock, hrst⟩
  obtain ⟨t, hexec, hview⟩ := hacc.exec_view (i := .scanAll) rfl
  have hframes : s.ownerView.passFrames = manualFrames s.cfg := by simp [State.passFrames, hman]
  have hpriming : s.ownerView.primingFrames = 1 := by simp [State.primingFrames, hman]
  have harmed : s.ownerView.armedAt 10 = s.autoArmed := by simp [State.armedAt, hman]
  have hrun := scanAllOp_completes hacc.calm (hostWordOf .scanAll) hlock hdrv (hframes ▸ hex)
  rw [State.firstStep, hframes, hpriming, harmed, State.ownerView_straps, hman] at hrun
  exact ⟨t, hexec, hview.trans hrun⟩

/-- Settles O29: an armed pass has no priming frame, an unarmed one a restart, and the last restart arms. -/
theorem autoPassCapturesEightResults : Obligations.AutoPassCapturesEightResults := by
  intro s rs d b hport hidle hlock hrst hdrv hauto
  have hacc : s.Accepts := ⟨hport, hidle, hlock, hrst⟩
  obtain ⟨t, hexec, hview⟩ := hacc.exec_view (i := .scanAll) rfl
  have harmed : s.ownerView.armedAt 10 = true := by simp [State.armedAt, hauto]
  refine ⟨fun hstart hex => ?_, fun hstart hex => ?_⟩
  · have hframes : s.ownerView.passFrames = autoFrames s.cfg := by simp [State.passFrames, hauto, hstart]
    have hpriming : s.ownerView.primingFrames = 0 := by simp [State.primingFrames, hauto, hstart]
    have hrun := scanAllOp_completes hacc.calm (hostWordOf .scanAll) hlock hdrv (hframes ▸ hex)
    rw [State.firstStep, hframes, hpriming, harmed, State.ownerView_straps, hauto] at hrun
    exact ⟨t, hexec, hview.trans hrun⟩
  · have hframes : s.ownerView.passFrames = cmdReq s.cfg.opcAutoRst :: autoFrames s.cfg := by
      simp [State.passFrames, hauto, hstart]
    have hpriming : s.ownerView.primingFrames = 1 := by simp [State.primingFrames, hstart]
    have hrun := scanAllOp_completes hacc.calm (hostWordOf .scanAll) hlock hdrv (hframes ▸ hex)
    rw [State.firstStep, hframes, hpriming, harmed, State.ownerView_straps, hauto] at hrun
    exact ⟨t, hexec, hview.trans hrun⟩

/-- Settles O30: whichever frame faults, what was captured before it is committed in step F. -/
theorem faultedPassCommitsWhatItCaptured : Obligations.FaultedPassCommitsWhatItCaptured := by
  intro s m rs d a b f hport hidle hlock hrst hdrv hf hex hfault
  have hacc : s.Accepts := ⟨hport, hidle, hlock, hrst⟩
  obtain ⟨t, hexec, hview⟩ := hacc.exec_view (i := .scanAll) rfl
  have hpass := s.passFrames_eq
  rw [hpass] at hf
  obtain ⟨hm, rfl⟩ := stepFrames_getElem? hf
  have htake : s.passFrames.take m = stepFrames s.cfg s.straps.strategy s.firstStep m := by
    rw [hpass, stepFrames_take _ _ _ hm.le]
  rw [htake] at hex ⊢
  have hrun := hview.trans (scanAllOp_faults hacc.calm (hostWordOf .scanAll) hlock hdrv (m := m)
    (show s.firstStep + m ≤ 9 by omega) hex hfault)
  obtain ⟨hlanes, hvalid⟩ := State.lanes_of_view hrun
  have hft := congrArg State.ft hrun
  rw [State.ownerView_ft] at hft
  refine ⟨t, hexec, ?_, hrun.trans ?_⟩
  · rw [hft]
    exact a.ftAfterFault_idle (ftAfterFrames_idle hidle _ _) _ _ _
  · rw [hlanes, hvalid, hft, State.passed_eq hlock]
    rfl

end Sys2Proof.Machine
end

section
/-! PROOFS. The arithmetic of CVT (43_converter.md: R231 to R239): the number a code stands for, the exact voltage as
that number times the weight of one bit, and the word that TO_VOLTAGE answers on either port. -/

namespace Sys2Proof.Machine

open Sys2Proof

/-! ## The range code (R233) -/

theorem cvtRange_of_le {rg : Byte} (h : rg.toNat ≤ 6) : cvtRange rg = rg.toNat := if_pos h

theorem cvtRange_of_lt {rg : Byte} (h : 6 < rg.toNat) : cvtRange rg = 0 := if_neg (Nat.not_le_of_lt h)

theorem cvtRange_le (rg : Byte) : cvtRange rg ≤ 6 := by
  unfold cvtRange
  split <;> omega

/-- CVT reads nothing of an out-of-range code but that it is one. -/
theorem voltageQ_clamped {rg : Byte} (h : 6 < rg.toNat) (k : BipolarCoding) (code : Code) :
    voltageQ k code rg = voltageQ k code 0 := by
  simp only [voltageQ, cvtRange_of_lt h, show cvtRange 0 = 0 from rfl]

theorem voltage_clamped {rg : Byte} (h : 6 < rg.toNat) (k : BipolarCoding) (code : Code) :
    voltage k code rg = voltage k code 0 := by
  simp only [voltage, cvtRange_of_lt h, show cvtRange 0 = 0 from rfl]

/-! ## The number a code stands for (R232, R238) -/

theorem bipolar_of_le {r : Nat} (h : r ≤ 4) : bipolar r = true := decide_eq_true h

theorem bipolar_of_lt {r : Nat} (h : 4 < r) : bipolar r = false := decide_eq_false (Nat.not_le_of_lt h)

section
variable {r : Nat} (code : Code)

theorem codeValue_twosComplement (h : r ≤ 4) : codeValue .twosComplement code r = code.toInt :=
  if_pos (bipolar_of_le h)

theorem codeValue_offsetBinary (h : r ≤ 4) : codeValue .offsetBinary code r = (code.toNat : Int) - 32768 :=
  if_pos (bipolar_of_le h)

theorem codeValue_unipolar (h : 4 < r) (k : BipolarCoding) : codeValue k code r = (code.toNat : Int) :=
  if_neg (ne_true_of_eq_false (bipolar_of_lt h))

theorem codeValue_bipolar_mem (h : r ≤ 4) (k : BipolarCoding) :
    -32768 ≤ codeValue k code r ∧ codeValue k code r ≤ 32767 := by
  cases k with
  | twosComplement =>
    rw [codeValue_twosComplement code h]
    exact ⟨BitVec.le_toInt code, Int.le_of_lt_add_one BitVec.toInt_lt⟩
  | offsetBinary =>
    rw [codeValue_offsetBinary code h]
    omega

theorem codeValue_unipolar_mem (h : 4 < r) (k : BipolarCoding) :
    0 ≤ codeValue k code r ∧ codeValue k code r ≤ 65535 := by
  rw [codeValue_unipolar code h]
  omega

end

/-- Flipping the top bit of a code adds half the span, or takes it away. -/
theorem toInt_flipTop (code : Code) : (code ^^^ 0x8000).toInt = (code.toNat : Int) - 32768 := by
  have hflip : (code ^^^ 0x8000).toNat = code.toNat ^^^ 2 ^ 15 := BitVec.toNat_xor code 0x8000
  have hlow : (code.toNat ^^^ 2 ^ 15) % 2 ^ 15 = code.toNat % 2 ^ 15 := by
    rw [Nat.xor_mod_two_pow, Nat.mod_self, Nat.xor_zero]
  have hhigh : (code.toNat ^^^ 2 ^ 15) / 2 ^ 15 = code.toNat / 2 ^ 15 ^^^ 1 := Nat.xor_div_two_pow
  have htop : code.toNat / 2 ^ 15 = 0 ∨ code.toNat / 2 ^ 15 = 1 := by omega
  rw [BitVec.toInt_eq_toNat_cond, hflip]
  generalize code.toNat ^^^ 2 ^ 15 = flipped at *
  rcases htop with h | h
  · have hset : flipped / 2 ^ 15 = 1 := hhigh.trans (congrArg (· ^^^ 1) h)
    rw [if_neg (by omega)]
    omega
  · have hclear : flipped / 2 ^ 15 = 0 := hhigh.trans (congrArg (· ^^^ 1) h)
    rw [if_pos (by omega)]
    omega

/-! ## The weight of one bit (R234, R236) -/

theorem shiftOf_eq {r : Nat} (h : r ≤ 6) : shiftOf r = [4, 3, 2, 1, 0, 3, 2].getD r 0 := by
  interval_cases r <;> rfl

theorem shiftOf_bipolar {r : Nat} (h : r ≤ 4) : shiftOf r ≤ 4 := by
  interval_cases r <;> decide

theorem shiftOf_unipolar {r : Nat} (h : 4 < r) (h6 : r ≤ 6) : shiftOf r ≤ 3 := by
  interval_cases r <;> decide

theorem fullScale_getElem? {r : Nat} (h : r ≤ 6) :
    [1024 / 100, 512 / 100, 256 / 100, 128 / 100, 64 / 100, 1024 / 100, 512 / 100][r]? = some (fullScale r) := by
  interval_cases r <;> rfl

theorem fullScale_pos {r : Nat} (h : r ≤ 6) : 0 < fullScale r := by
  interval_cases r <;> norm_num [fullScale]

/-- One bit of a code weighs a power of two of 1/51200 V, under every range. -/
theorem bitWeight_eq {r : Nat} (h : r ≤ 6) :
    fullScale r / (if bipolar r then 32768 else 65536) = 2 ^ shiftOf r / 51200 := by
  interval_cases r <;> norm_num [fullScale, bipolar, shiftOf]

/-! ## The voltage (R231, R235) -/

theorem voltage_eq_voltageQ (k : BipolarCoding) (code : Code) (rg : Byte) :
    voltage k code rg = (voltageQ k code rg : Rat) / 51200 :=
  calc voltage k code rg
    _ = codeValue k code (cvtRange rg) *
          (fullScale (cvtRange rg) / (if bipolar (cvtRange rg) then 32768 else 65536)) :=
        (div_mul_eq_mul_div ..).trans (mul_div_assoc ..)
    _ = codeValue k code (cvtRange rg) * (2 ^ shiftOf (cvtRange rg) / 51200) := by rw [bitWeight_eq (cvtRange_le rg)]
    _ = (voltageQ k code rg : Rat) / 51200 := by rw [voltageQ]; push_cast; exact (mul_div_assoc ..).symm

theorem voltage_bipolar {rg : Byte} (h : rg.toNat ≤ 4) (code : Code) :
    voltage .twosComplement code rg = (code.toInt : Rat) / 32768 * fullScale rg.toNat := by
  simp only [voltage, cvtRange_of_le (h.trans (by decide)), codeValue_twosComplement code h, bipolar_of_le h, if_true]

theorem voltage_unipolar {rg : Byte} (h : 4 < rg.toNat) (h6 : rg.toNat ≤ 6) (k : BipolarCoding) (code : Code) :
    voltage k code rg = (code.toNat : Rat) / 65536 * fullScale rg.toNat := by
  simp [voltage, cvtRange_of_le h6, codeValue_unipolar code h, bipolar_of_lt h]

/-! ## The range of the results (R237) -/

/-- The bounds of a number that may be negative, shifted by the most bits, bound it shifted by fewer. -/
theorem shifted_mem {n lo hi : Int} {i m : Nat} (him : i ≤ m) (hlo : lo ≤ 0) (hhi : 0 ≤ hi)
    (hn : lo ≤ n ∧ n ≤ hi) : lo * 2 ^ m ≤ n * 2 ^ i ∧ n * 2 ^ i ≤ hi * 2 ^ m := by
  obtain ⟨hlower, hupper⟩ := hn
  have hpow : (2 : Int) ^ i ≤ 2 ^ m := pow_le_pow_right₀ (by decide) him
  have hpos : (0 : Int) ≤ 2 ^ i := by positivity
  exact ⟨(mul_le_mul_of_nonpos_left hpow hlo).trans (mul_le_mul_of_nonneg_right hlower hpos),
    (mul_le_mul_of_nonneg_right hupper hpos).trans (mul_le_mul_of_nonneg_left hpow hhi)⟩

section
variable (k : BipolarCoding) (code : Code) {rg : Byte}

theorem voltageQ_bipolar_mem (h : cvtRange rg ≤ 4) :
    -524288 ≤ voltageQ k code rg ∧ voltageQ k code rg ≤ 524272 :=
  shifted_mem (shiftOf_bipolar h) (by decide) (by decide) (codeValue_bipolar_mem code h k)

theorem voltageQ_unipolar_mem (h : 4 < cvtRange rg) : 0 ≤ voltageQ k code rg ∧ voltageQ k code rg ≤ 524280 :=
  shifted_mem (shiftOf_unipolar h (cvtRange_le rg)) (by decide) (by decide) (codeValue_unipolar_mem code h k)

variable (rg)

theorem voltageQ_mem : -524288 ≤ voltageQ k code rg ∧ voltageQ k code rg ≤ 524280 := by
  rcases le_or_gt (cvtRange rg) 4 with h | h
  · have := voltageQ_bipolar_mem k code h
    omega
  · have := voltageQ_unipolar_mem k code h
    omega

/-- Every result fits in a word of 21 bits or more. -/
theorem voltageQ_toInt_ofInt {w : Nat} (hw : 21 ≤ w) :
    (BitVec.ofInt w (voltageQ k code rg)).toInt = voltageQ k code rg := by
  have hmem := voltageQ_mem k code rg
  have hpow : (2 : Int) ^ 20 ≤ 2 ^ (w - 1) := pow_le_pow_right₀ (by decide) (by omega)
  exact BitVec.toInt_ofInt_eq_self (by omega) (by omega) (by omega)

theorem voltageQ_signExtend :
    BitVec.ofInt 32 (voltageQ k code rg) = (BitVec.ofInt 21 (voltageQ k code rg)).signExtend 32 := by
  apply BitVec.eq_of_toInt_eq
  rw [BitVec.toInt_signExtend_of_le (by decide), voltageQ_toInt_ofInt k code rg (by decide),
    voltageQ_toInt_ofInt k code rg (by decide)]

theorem voltage_mem : -(1024 / 100) ≤ voltage k code rg ∧ voltage k code rg ≤ 1024 / 100 * 65535 / 65536 := by
  obtain ⟨hlo, hhi⟩ := voltageQ_mem k code rg
  have hlo' : (-524288 : Rat) ≤ voltageQ k code rg := by exact_mod_cast hlo
  have hhi' : (voltageQ k code rg : Rat) ≤ 524280 := by exact_mod_cast hhi
  rw [voltage_eq_voltageQ]
  constructor <;> linarith

end

theorem voltage_zero (rg : Byte) : voltage .twosComplement 0 rg = 0 := by
  have hvalue : codeValue .twosComplement 0 (cvtRange rg) = 0 := by
    rcases le_or_gt (cvtRange rg) 4 with h | h
    · exact codeValue_twosComplement 0 h
    · exact codeValue_unipolar 0 h _
  rw [voltage_eq_voltageQ, voltageQ, hvalue, zero_mul, Int.cast_zero, zero_div]

/-! ## Extremes, monotony and scaling (R239) -/

section
variable {rg : Byte}

theorem voltage_bipolar_min (h : rg.toNat ≤ 4) : voltage .twosComplement 0x8000 rg = -fullScale rg.toNat := by
  rw [voltage_bipolar h, show BitVec.toInt (0x8000 : Code) = -32768 from rfl]
  push_cast
  ring

theorem voltage_bipolar_max (h : rg.toNat ≤ 4) :
    voltage .twosComplement 0x7FFF rg = fullScale rg.toNat - fullScale rg.toNat / 32768 := by
  rw [voltage_bipolar h, show BitVec.toInt (0x7FFF : Code) = 32767 from rfl]
  push_cast
  ring

theorem voltage_bipolar_strictMono (h : rg.toNat ≤ 4) {x y : Code} (hxy : x.toInt < y.toInt) :
    voltage .twosComplement x rg < voltage .twosComplement y rg := by
  have hpos := fullScale_pos (h.trans (by decide))
  rw [voltage_bipolar h, voltage_bipolar h]
  gcongr

theorem voltage_unipolar_max (h : 4 < rg.toNat) (h6 : rg.toNat ≤ 6) (k : BipolarCoding) :
    voltage k 0xFFFF rg = fullScale rg.toNat * 65535 / 65536 := by
  rw [voltage_unipolar h h6, show BitVec.toNat (0xFFFF : Code) = 65535 from rfl]
  push_cast
  ring

theorem voltage_unipolar_strictMono (h : 4 < rg.toNat) (h6 : rg.toNat ≤ 6) (k : BipolarCoding) {x y : Code}
    (hxy : x.toNat < y.toNat) : voltage k x rg < voltage k y rg := by
  have hpos := fullScale_pos h6
  rw [voltage_unipolar h h6, voltage_unipolar h h6]
  gcongr

end

theorem voltage_bipolar_scales {rg : Byte} {r : Nat} (hrg : rg.toNat = r) (h : r ≤ 4) (x : Code) :
    voltage .twosComplement x 0 = 2 ^ r * voltage .twosComplement x rg := by
  have hscale : fullScale 0 = 2 ^ r * fullScale r := by interval_cases r <;> norm_num [fullScale]
  calc voltage .twosComplement x 0
    _ = (x.toInt : Rat) / 32768 * fullScale 0 := voltage_bipolar (rg := 0) (by decide) x
    _ = 2 ^ r * ((x.toInt : Rat) / 32768 * fullScale r) := by rw [hscale]; ring
    _ = 2 ^ r * voltage .twosComplement x rg := by rw [voltage_bipolar (hrg ▸ h), hrg]

theorem voltage_unipolar_scales (k : BipolarCoding) (x : Code) : voltage k x 5 = 2 * voltage k x 6 :=
  calc voltage k x 5
    _ = (x.toNat : Rat) / 65536 * fullScale 5 := voltage_unipolar (rg := 5) (by decide) (by decide) k x
    _ = 2 * ((x.toNat : Rat) / 65536 * fullScale 6) := by norm_num [fullScale]; ring
    _ = 2 * voltage k x 6 := by rw [voltage_unipolar (rg := 6) (by decide) (by decide)]; rfl

/-! ## TO_VOLTAGE (R231) -/

theorem hostWordOf_toVoltage (code : Code) (rg : Byte) : hostWordOf (.toVoltage code rg) = 0x90#8 ++ rg ++ code :=
  hostWord_append 9 rg code

theorem voltageResponse_eq (k : BipolarCoding) (code : Code) (rg : Byte) :
    voltageResponse k code rg = ⟨.ok, 0, (BitVec.ofInt 32 (voltageQ k code rg)).setWidth 128⟩ := rfl

theorem State.toVoltageC_eq (s : State) (cw : HostWord) (code : Code) (rg : Byte) :
    s.toVoltageC cw code rg = { s with
      cResp := some (voltageResponse s.straps.coding code rg),
      hist := s.hist ++ [.op .C cw, .resp .C (voltageResponse s.straps.coding code rg)] } := by
  simp only [State.toVoltageC, State.respondC, State.emit, List.append_assoc, List.cons_append, List.nil_append]

theorem exec_toVoltage_portC {s : State} (hport : s.port = .C) (code : Code) (rg : Byte) :
    exec (.toVoltage code rg) s = .next (s.toVoltageC (hostWordOf (.toVoltage code rg)) code rg) := by
  simp only [exec, execToVoltage, hport]

/-- The one step of TO_VOLTAGE on port P. -/
theorem toVoltageOp_answers {v : State} (h : v.Calm) (cw : HostWord) (code : Code) (rg : Byte) :
    (toVoltageOp code rg).run seqFuel (v.acceptP cw) =
      v.answered cw 0 (voltageResponse v.straps.coding code rg) [] := by
  have hstep : (toVoltageOp code rg).Leads 1 (v.within cw 0 []) _ :=
    h.answers (u := v) (r := voltageResponse v.straps.coding code rg) rfl
  exact hstep.ends

/-- A response on port P has been given, and it is `r`. -/
def State.Answered (r : Response) (s : State) : Prop := s.busy = false ∧ s.pResp = some r ∧ s.curStatus = r.status

/-- The lock and the words of port C beside it make no difference to the response (R79, R230). -/
theorem exec_toVoltage_portP {s : State} (hport : s.port = .P) (hidle : s.ft.state = .idle) (hr : s.NoRst)
    (code : Code) (rg : Byte) :
    ∃ t, exec (.toVoltage code rg) s = .next t ∧ t.Answered (voltageResponse s.straps.coding code rg) := by
  refine ⟨_, exec_portP (i := .toVoltage code rg) rfl hport, ?_⟩
  have hfirst : ((s.acceptP (hostWordOf (.toVoltage code rg))).tick (toVoltageOp code rg).micro).Answered
      (voltageResponse s.straps.coding code rg) := by
    refine IgnoresPortC.tick (P := fun u => u.straps = s.straps) (fun _ _ _ _ _ hu => hu) (fun _ _ _ _ _ hu => hu)
      (fun u hu => ?_) (s := s.acceptP _) hr rfl
    have hstep : (toVoltageOp code rg).step u.seqK u = noFrame (u.respondP (voltageResponse s.straps.coding code rg)) :=
      congrArg (fun k : Straps => noFrame (u.respondP (voltageResponse k.coding code rg))) hu
    exact SeqOp.micro_none hstep ▸ ⟨rfl, rfl, rfl⟩
  rw [show seqFuel = 15 + 1 from rfl,
    (toVoltageOp code rg).run_active 15 (s := s.acceptP (hostWordOf (.toVoltage code rg))) rfl hidle,
    (toVoltageOp code rg).run_stopped 15 (by simp [hfirst.1])]
  exact hfirst

/-! ## The statements -/

/-- Settles O32: the rule's `V` and `vq` are the model's, and TO_VOLTAGE answers in its step 0. -/
theorem toVoltageAnswersTheVoltage : Obligations.ToVoltageAnswersTheVoltage := by
  intro s code rg r n vq V fs hr hn hfs hV hvq
  obtain rfl : r = cvtRange rg := hr
  obtain rfl : fs = fullScale (cvtRange rg) := Option.some.inj (hfs.trans (fullScale_getElem? (cvtRange_le rg)))
  have hvalue : n = codeValue s.straps.coding code (cvtRange rg) := by
    rw [hn]
    cases s.straps.coding <;> simp [codeValue, bipolar]
  have hvoltage : V = voltage s.straps.coding code rg := by
    rw [hV, hvalue]
    simp [voltage, bipolar]
  have hword : vq = voltageQ s.straps.coding code rg := by
    rw [hvq, hvalue, voltageQ, shiftOf_eq (cvtRange_le rg)]
  subst hword
  rw [hvoltage, ← hostWordOf_toVoltage, ← voltageResponse_eq]
  refine ⟨voltage_eq_voltageQ _ _ _, fun hport hidle hlock hrst => ?_, fun hport => ?_⟩
  · have hacc : s.Accepts := ⟨hport, hidle, hlock, hrst⟩
    obtain ⟨t, hexec, hview⟩ := hacc.exec_view (i := .toVoltage code rg) rfl
    exact ⟨t, hexec, hview.trans (toVoltageOp_answers hacc.calm _ code rg)⟩
  · rw [exec_toVoltage_portC hport, State.toVoltageC_eq]

/-- Settles O33: one bit weighs a whole number of units of 1/51200 V, and the results fit in 21 bits. -/
theorem fixedPointVoltageIsExact : Obligations.FixedPointVoltageIsExact := fun k code rg =>
  ⟨voltage_eq_voltageQ k code rg, voltageQ_toInt_ofInt k code rg (by decide)⟩

/-- Settles O34: CVT clamps the range code, and it alone decides the response. -/
theorem outOfRangeCodeClamps : Obligations.OutOfRangeCodeClamps := by
  intro s code rg hrg hidle hrst
  have hresponse : voltageResponse s.straps.coding code rg = voltageResponse s.straps.coding code 0 :=
    congrArg (fun q => Response.scalar (BitVec.ofInt 32 q)) (voltageQ_clamped hrg _ code)
  refine ⟨fun k => ⟨voltageQ_clamped hrg k code, voltage_clamped hrg k code⟩, ?_⟩
  cases hport : s.port with
  | P =>
    obtain ⟨t, ht, _, htresp, htok⟩ := exec_toVoltage_portP hport hidle hrst code rg
    obtain ⟨u, hu, _, huresp, _⟩ := exec_toVoltage_portP hport hidle hrst code 0
    exact ⟨t, u, ht, hu, fun _ => ⟨by rw [htresp, huresp, hresponse], htok⟩, nofun⟩
  | C =>
    refine ⟨_, _, exec_toVoltage_portC hport code rg, exec_toVoltage_portC hport code 0, nofun, fun _ => ?_⟩
    rw [State.toVoltageC_eq, State.toVoltageC_eq, hresponse]

/-- Settles O35: the bounds of a code's number, shifted by at most 4 and at most 3 bits. -/
theorem voltageStaysInRange : Obligations.VoltageStaysInRange :=
  ⟨fun k code rg => ⟨voltageQ_bipolar_mem k code, voltageQ_unipolar_mem k code, voltageQ_signExtend k code rg⟩,
    voltage_mem .twosComplement, voltage_bipolar_min (rg := 0) (by decide),
    voltage_unipolar_max (rg := 5) (by decide) (by decide) _, voltage_zero⟩

/-- Settles O36: a voltage is the code's number times a positive weight that its range fixes. -/
theorem converterLaws : Obligations.ConverterLaws := by
  refine ⟨fun rg h => ⟨voltage_bipolar_min h, voltage_bipolar_max h, fun x y => voltage_bipolar_strictMono h⟩,
    fun rg h => ?_, fun x => ⟨?_, ?_, ?_, ?_, ?_⟩, fun x rg h => voltage_clamped h _ x⟩
  · have h4 : 4 < rg.toNat := by omega
    have h6 : rg.toNat ≤ 6 := by omega
    exact ⟨voltage_zero rg, voltage_unipolar_max h4 h6 _, fun x y => voltage_unipolar_strictMono h4 h6 _⟩
  · exact (voltage_bipolar_scales (rg := 1) (r := 1) rfl (by decide) x).trans (by norm_num)
  · exact (voltage_bipolar_scales (rg := 2) (r := 2) rfl (by decide) x).trans (by norm_num)
  · exact (voltage_bipolar_scales (rg := 3) (r := 3) rfl (by decide) x).trans (by norm_num)
  · exact (voltage_bipolar_scales (rg := 4) (r := 4) rfl (by decide) x).trans (by norm_num)
  · exact voltage_unipolar_scales _ x

/-- Settles O37: the codings differ in the number of a bipolar code alone, by its top bit. -/
theorem offsetBinaryFlipsTheTopBit : Obligations.OffsetBinaryFlipsTheTopBit := by
  intro code rg
  refine ⟨fun h => ⟨?_, ?_⟩, fun h => ?_⟩
  · rw [voltageQ, voltageQ, codeValue_offsetBinary code h, codeValue_twosComplement _ h, toInt_flipTop]
  · simp [voltage, codeValue_offsetBinary _ h]
  · rw [voltageQ, voltageQ, codeValue_unipolar code h, codeValue_unipolar code h]

end Sys2Proof.Machine
end

section
/-! PROOFS. The wire frames against DEV (44_adc_wire_commands.md: R251 to R259, R261, R262): after a completed frame of
a bench DEV has received it, and what DEV does with each command frame and each register frame is said once. -/

namespace Sys2Proof

/-! ## The rows of the wire and the channels (R11, R111) -/

/-- A row of 32 bits sends one of R11's commands. -/
theorem command_of_encode {c : Config} {i : Instr} {tx : TxWord} (h : encode c i = .frame .w32 tx) :
    ∃ cmd ∈ c.commands, tx = cmdFrame cmd := by
  cases i with
  | wNoOp | wRst | wAutoRst | wManCh0 | wManCh1 | wManCh2 | wManCh3 | wManCh4 | wManCh5 | wManCh6 | wManCh7 =>
    cases h; exact ⟨_, by simp [Config.commands], rfl⟩
  | _ => cases h

theorem Config.manChOf_none {c : Config} {cmd : BitVec 16} (h : c.manChOf cmd = none) (n : Chan) :
    c.opcManCh[n] ≠ cmd := by
  simpa using List.find?_eq_none.mp h n (mem_channels n)

theorem channels_getElem (n : Chan) : channels[n.val]'n.isLt = n := by
  fin_cases n <;> rfl

/-- The search finds the lowest channel with the property. -/
theorem find_lowest_channel {p : Chan → Bool} {n : Chan} (hn : p n = true) (hlow : ∀ j, j < n → p j = false) :
    channels.find? p = some n := by
  refine List.find?_eq_some_iff_getElem.mpr ⟨hn, n.val, n.isLt, channels_getElem n, fun j hj => ?_⟩
  have hget := channels_getElem ⟨j, hj.trans n.isLt⟩
  exact congrArg Bool.not ((congrArg p hget).trans (hlow _ hj))

/-- The two other registers lie outside the range registers (R11). -/
theorem Config.rangeReg_ne {c : Config} (h : c.addressesOk = true) (n : Chan) :
    c.rangeReg n ≠ c.regAutoSeqEn ∧ c.rangeReg n ≠ c.regChPwrDn := by
  obtain ⟨_, hbase, _, hauto, hpwr⟩ := c.addressesOk_iff.mp h
  have hin : c.isRangeReg (c.rangeReg n) = true := (Config.isRangeReg_iff_rangeReg hbase _).mpr ⟨n, rfl⟩
  exact ⟨fun heq => hauto (heq ▸ hin), fun heq => hpwr (heq ▸ hin)⟩

end Sys2Proof

namespace Sys2Proof.Machine

open Sys2Proof

/-! ## A frame of a bench that BUS completes (R131) -/

/-- A row of the wire whose frame BUS completes: DEV has received the frame as encoded. -/
theorem exec_wire_done {s : State} {i : Instr} {w : Width} {tx : TxWord} {a : BusAnswer} {b : List BusAnswer}
    {rx : BitVec 32} (henc : encode s.cfg i = .frame w tx) (hbus : s.busIn = a :: b) (hrx : a.word s.dev w = some rx) :
    exec i s = .next (s.wireDone .transact w tx rx b (s.dev.receive s.cfg w tx)) :=
  (wireFramesGoOutAsEncoded s i w tx a b henc hbus).1 rx hrx

/-- A command frame that DEV answers returns the conversion that was pending when it began (R251). -/
theorem exec_wire_returns {s : State} {i : Instr} {tx : TxWord} {noise : BitVec 32} {b : List BusAnswer} {code : Code}
    (hbus : s.busIn = .device noise :: b) (henc : encode s.cfg i = .frame .w32 tx)
    (hpending : s.dev.pending = some code) :
    ∃ u y, exec i s = .next u ∧ u.ftReply = some ⟨.ok, y⟩ ∧ y.extractLsb' 0 16 = code := by
  refine ⟨_, _, exec_wire_done henc hbus rfl, rfl, ?_⟩
  rw [Width.trunc_w32]
  exact Dev.returns_pending noise hpending

/-! ## Command frames (R252 to R255, R262) -/

section
variable (c : Config) (d : Dev)

theorem Dev.receive_command (cmd : BitVec 16) :
    d.receive c .w32 (cmdFrame cmd) = { d.command c cmd with frames := d.frames + 1 } := by
  simp only [Dev.receive, Dev.act, cmdFrame_command]

theorem Dev.receive_opcRst : d.receive c .w32 (cmdFrame c.opcRst) = { d.rst with frames := d.frames + 1 } := by
  rw [Dev.receive_command, Dev.command, if_pos rfl]

variable {c}

theorem Dev.receive_opcAutoRst (h : c.commands.Nodup) :
    d.receive c .w32 (cmdFrame c.opcAutoRst) = { d.autoRst c with frames := d.frames + 1 } := by
  obtain ⟨⟨_, _, har⟩, _, _⟩ := Config.commands_distinct h
  rw [Dev.receive_command, Dev.command, if_neg har, if_pos rfl]

theorem Dev.receive_opcNoOp (h : c.commands.Nodup) :
    d.receive c .w32 (cmdFrame c.opcNoOp) = { d.noOp c with frames := d.frames + 1 } := by
  obtain ⟨⟨hrn, han, _⟩, _, _⟩ := Config.commands_distinct h
  rw [Dev.receive_command, Dev.command, if_neg hrn.symm, if_neg han.symm, if_pos rfl]

theorem Dev.receive_opcManCh (h : c.commands.Nodup) (n : Chan) :
    d.receive c .w32 (cmdFrame c.opcManCh[n]) = { d.convert (.man n) n with frames := d.frames + 1 } := by
  obtain ⟨_, hfixed, _⟩ := Config.commands_distinct h
  obtain ⟨hn, hr, ha⟩ := hfixed n
  rw [Dev.receive_command, Dev.command, if_neg hr, if_neg ha, if_neg hn, Config.manChOf_opcManCh h]
  rfl

end

/-! ## The channels in sequence (R254, R262) -/

section
variable {c : Config} {d : Dev} {m n : Chan}

theorem Dev.lowest_eq_some (hn : d.inSequence c n = true) (hlow : ∀ j, j < n → d.inSequence c j = false) :
    d.lowest c = some n :=
  find_lowest_channel hn hlow

theorem Dev.lowest_eq_none (h : ∀ n, d.inSequence c n = false) : d.lowest c = none :=
  List.find?_eq_none.mpr fun n _ => by simp [h n]

/-- The next channel in sequence above `n` (R252). -/
theorem Dev.after_above (hm : d.inSequence c m = true) (hnm : n < m)
    (hbetween : ∀ j, n < j → j < m → d.inSequence c j = false) : d.after c n = some m := by
  have hfind : channels.find? (fun j => decide (n < j) && d.inSequence c j) = some m :=
    find_lowest_channel (by simp [hm, hnm]) fun j hj => by
      by_cases hnj : n < j
      · simp [hbetween j hnj hj]
      · simp [hnj]
  rw [Dev.after, hfind]

/-- The wrap to the lowest channel in sequence (R252). -/
theorem Dev.after_wraps (habove : ∀ j, n < j → d.inSequence c j = false) (hm : d.inSequence c m = true)
    (hlow : ∀ j, j < m → d.inSequence c j = false) : d.after c n = some m := by
  have hfind : channels.find? (fun j => decide (n < j) && d.inSequence c j) = none :=
    List.find?_eq_none.mpr fun j _ => by
      by_cases hnj : n < j
      · simp [habove j hnj]
      · simp [hnj]
  rw [Dev.after, hfind]
  exact Dev.lowest_eq_some hm hlow

theorem Dev.noOp_idle (h : d.mode = .idle) : d.noOp c = { d with pending := none } := by
  rw [Dev.noOp, h]

theorem Dev.noOp_man (h : d.mode = .man n) : d.noOp c = d.convert (.man n) n := by
  rw [Dev.noOp, h]

theorem Dev.noOp_auto (h : d.mode = .auto n) (hnext : d.after c n = some m) :
    d.noOp c = d.convert (.auto m) m := by
  simp only [Dev.noOp, h, hnext]

theorem Dev.autoRst_some (h : d.lowest c = some n) : d.autoRst c = d.convert (.auto n) n := by
  rw [Dev.autoRst, h]

theorem Dev.autoRst_none (h : d.lowest c = none) : d.autoRst c = d.toIdle := by
  rw [Dev.autoRst, h]

end

/-! ## What the commands keep -/

section
variable (c : Config) (d : Dev)

theorem Dev.noOp_keeps : (d.noOp c).pr = d.pr ∧ (d.noOp c).sampler = d.sampler := by
  unfold Dev.noOp
  split
  · exact ⟨rfl, rfl⟩
  · split <;> exact ⟨rfl, rfl⟩
  · exact ⟨rfl, rfl⟩

theorem Dev.autoRst_keeps : (d.autoRst c).pr = d.pr ∧ (d.autoRst c).sampler = d.sampler := by
  unfold Dev.autoRst
  split <;> exact ⟨rfl, rfl⟩

/-- No frame changes what conversions give (R261). -/
theorem Dev.receive_sampler (w : Width) (tx : TxWord) : (d.receive c w tx).sampler = d.sampler := by
  cases w with
  | w16 => rfl
  | w24 =>
    simp only [Dev.receive, Dev.act]
    split <;> rfl
  | w32 =>
    simp only [Dev.receive, Dev.act, Dev.command]
    split
    · rfl
    split
    · exact (d.autoRst_keeps c).2
    split
    · exact (d.noOp_keeps c).2
    split <;> rfl

end

/-! ## Conversions and modes (R251, R262) -/

/-- Where `e` stands at a channel, the conversion of that channel that a frame starts in `d` is pending. -/
def Dev.Starts (d e : Dev) : Prop := ∀ n : Chan, e.mode = .man n ∨ e.mode = .auto n → e.pending = some (d.sample n)

section
variable {c : Config} (d : Dev)

theorem Dev.starts_of_idle {e : Dev} (h : e.mode = .idle) : d.Starts e := by
  rintro n (hn | hn) <;> cases h.symm.trans hn

theorem Dev.starts_man (n : Chan) : d.Starts (d.convert (.man n) n) := by
  rintro m (h | h) <;> cases h
  rfl

theorem Dev.starts_auto (n : Chan) : d.Starts (d.convert (.auto n) n) := by
  rintro m (h | h) <;> cases h
  rfl

theorem Dev.starts_autoRst : d.Starts (d.autoRst c) := by
  unfold Dev.autoRst
  split
  · exact d.starts_auto _
  · exact d.starts_of_idle rfl

theorem Dev.starts_noOp : d.Starts (d.noOp c) := by
  unfold Dev.noOp
  split
  · exact d.starts_man _
  · split
    · exact d.starts_auto _
    · exact d.starts_of_idle rfl
  · rename_i hidle; exact d.starts_of_idle hidle

/-- A command of R11 that leaves DEV at a channel has started that channel's conversion; only an unknown command
keeps the mode and starts none. -/
theorem Dev.starts_command {cmd : BitVec 16} (hcmd : cmd ∈ c.commands) : d.Starts (d.command c cmd) := by
  unfold Dev.command
  split
  · exact d.starts_of_idle rfl
  split
  · exact d.starts_autoRst
  split
  · exact d.starts_noOp
  split
  · exact d.starts_man _
  · rename_i hrst hauto hnoOp _ hnone
    have hselect : cmd ∈ c.opcManCh := by simpa [Config.commands, hrst, hauto, hnoOp] using hcmd
    obtain ⟨i, hi, hget⟩ := Vector.mem_iff_getElem.mp hselect
    exact absurd hget (Config.manChOf_none hnone ⟨i, hi⟩)

end

/-! ## The registers (R253, R256 to R259) -/

section
variable (c : Config) (d : Dev)

theorem Dev.receive_regFrame (a : BitVec 7) (v : Byte) :
    d.receive c .w24 (regFrame a v) = { d.write c a v with frames := d.frames + 1 } := by
  simp only [Dev.receive, Dev.act, regFrame_writeFlag, regFrame_address, regFrame_value, if_true]

theorem Dev.reg_write_same (h : Memory.wf c d.pr = true) (a : BitVec 7) (v : Byte) : (d.write c a v).reg c a = v :=
  Memory.read_write_same c _ v h

theorem Dev.reg_write_other {a a' : BitVec 7} (h : a' ≠ a) (v : Byte) : (d.write c a v).reg c a' = d.reg c a' :=
  Memory.read_write_other c d.pr v fun heq => h (BitVec.eq_of_toNat_eq heq)

variable {c d}

/-- Power-up values (R261). -/
theorem Dev.reg_powerUp (h : d.pr = []) (a : BitVec 7) : d.reg c a = if a = c.regAutoSeqEn then 0xFF else 0x00 := by
  simp only [Dev.reg, h, Memory.read, Memory.unlisted, BitVec.toNat_inj]

theorem Dev.inSequence_congr {e : Dev} (hseq : e.reg c c.regAutoSeqEn = d.reg c c.regAutoSeqEn)
    (hpwr : e.reg c c.regChPwrDn = d.reg c c.regChPwrDn) (n : Chan) : e.inSequence c n = d.inSequence c n := by
  rw [Dev.inSequence, Dev.inSequence, hseq, hpwr]

theorem Dev.inSequence_of_all (hseq : d.reg c c.regAutoSeqEn = 0xFF) (hpwr : d.reg c c.regChPwrDn = 0x00) (n : Chan) :
    d.inSequence c n = true := by
  rw [Dev.inSequence, hseq, hpwr]
  revert n
  decide

end

/-! ## The statements -/

/-- Settles O45: one case for each mode DEV may be in, the wrap being the second way to the next channel. -/
theorem noOpConvertsTheNextChannel : Obligations.NoOpConvertsTheNextChannel := by
  intro s a b rx hc hbus hrx
  obtain ⟨hnodup, _⟩ := s.cfg.addressesOk_iff.mp hc
  obtain ⟨hpr, hsampler⟩ := s.dev.noOp_keeps s.cfg
  refine ⟨_, exec_wire_done rfl hbus hrx, ?_⟩
  rw [Dev.receive_opcNoOp s.dev hnodup]
  refine ⟨hpr, rfl, hsampler, fun hidle => ?_, fun n hman => ?_, fun n m hauto hm hnext => ?_⟩
  · rw [Dev.noOp_idle hidle]; exact ⟨hidle, rfl⟩
  · rw [Dev.noOp_man hman]; exact ⟨rfl, rfl⟩
  · have hafter : s.dev.after s.cfg n = some m := by
      rcases hnext with ⟨hnm, hbetween⟩ | ⟨habove, hlow⟩
      · exact Dev.after_above hm hnm hbetween
      · exact Dev.after_wraps habove hm hlow
    rw [Dev.noOp_auto hauto hafter]; exact ⟨rfl, rfl⟩

/-- Settles O46: an empty PR reads as power-up. -/
theorem rstReturnsTheRegisters : Obligations.RstReturnsTheRegisters := by
  intro s a b rx hc hbus hrx
  obtain ⟨_, _, hne, _, _⟩ := s.cfg.addressesOk_iff.mp hc
  refine ⟨_, exec_wire_done rfl hbus hrx, ?_⟩
  rw [Dev.receive_opcRst]
  have hpowerUp := Dev.reg_powerUp (c := s.cfg) (d := { s.dev.rst with frames := s.dev.frames + 1 }) rfl
  exact ⟨fun n => (hpowerUp _).trans (if_neg (Config.rangeReg_ne hc n).1), (hpowerUp _).trans (if_neg hne.symm),
    (hpowerUp _).trans (if_pos rfl), rfl, rfl, rfl, rfl⟩

/-- Settles O47: DEV searches for the lowest channel in sequence. -/
theorem autoRstConvertsTheLowestChannel : Obligations.AutoRstConvertsTheLowestChannel := by
  intro s a b rx hc hbus hrx
  obtain ⟨hnodup, _⟩ := s.cfg.addressesOk_iff.mp hc
  refine ⟨_, exec_wire_done rfl hbus hrx, ?_⟩
  rw [Dev.receive_opcAutoRst s.dev hnodup]
  refine ⟨(s.dev.autoRst_keeps s.cfg).1, rfl, fun n hn hlow => ?_, fun hnone => ?_⟩
  · rw [Dev.autoRst_some (Dev.lowest_eq_some hn hlow)]; exact ⟨rfl, rfl⟩
  · rw [Dev.autoRst_none (Dev.lowest_eq_none hnone)]; exact ⟨rfl, rfl⟩

/-- Settles O48: the select commands are told apart under R11. -/
theorem manChConvertsItsChannel : Obligations.ManChConvertsItsChannel := by
  intro s n a b rx hc hbus hrx
  obtain ⟨hnodup, _⟩ := s.cfg.addressesOk_iff.mp hc
  refine ⟨_, exec_wire_done (encode_wManCh s.cfg n) hbus hrx, ?_⟩
  rw [Dev.receive_opcManCh s.dev hnodup]
  exact ⟨rfl, rfl, rfl, rfl⟩

/-- Settles O49: a write of PR reads back at its address and nowhere else. -/
theorem wrStoresOneRegister : Obligations.WrStoresOneRegister := by
  intro s r v a b rx hpr hbus hrx
  refine ⟨_, exec_wire_done rfl hbus hrx, ?_⟩
  rw [Dev.receive_regFrame]
  exact ⟨s.dev.reg_write_same s.cfg hpr r v, fun r' hr' => s.dev.reg_write_other s.cfg hr' v,
    Memory.write_wf s.cfg r v hpr, rfl, rfl⟩

/-- Settles O50: R11 keeps the three kinds of register apart. -/
theorem registerRowsWriteTheirRegister : Obligations.RegisterRowsWriteTheirRegister := by
  intro s a b rx hc hpr hbus hrx
  obtain ⟨_, hbase, hne, _, _⟩ := s.cfg.addressesOk_iff.mp hc
  have hrange := Config.rangeReg_ne hc
  refine ⟨⟨_, exec_wire_done rfl hbus hrx, ?_⟩, ⟨_, exec_wire_done rfl hbus hrx, ?_⟩,
    fun n v => ⟨_, exec_wire_done (encode_wWrRange s.cfg n v) hbus hrx, ?_⟩⟩
  · rw [Dev.receive_regFrame]
    exact ⟨s.dev.reg_write_same s.cfg hpr _ _, fun n => s.dev.reg_write_other s.cfg (hrange n).2 _,
      s.dev.reg_write_other s.cfg hne _⟩
  · rw [Dev.receive_regFrame]
    have hpwr := s.dev.reg_write_other s.cfg hne.symm s.cfg.seqEnAll
    have hseq := s.dev.reg_write_same s.cfg hpr s.cfg.regAutoSeqEn s.cfg.seqEnAll
    exact ⟨hseq, fun n => s.dev.reg_write_other s.cfg (hrange n).1 _, hpwr,
      fun hall hon n => Dev.inSequence_of_all (hseq.trans hall) (hpwr.trans hon) n⟩
  · rw [Dev.receive_regFrame]
    have hpwr := s.dev.reg_write_other s.cfg (hrange n).2.symm v
    have hseq := s.dev.reg_write_other s.cfg (hrange n).1.symm v
    exact ⟨s.dev.reg_write_same s.cfg hpr _ v,
      fun m hm => s.dev.reg_write_other s.cfg (fun heq => hm (s.cfg.rangeReg_injective hbase heq)) v, hpwr, hseq,
      Dev.inSequence_congr hseq hpwr⟩

/-- Settles O51: the frame that leaves DEV at a channel makes its conversion pending, the next one returns it. -/
theorem responseBelongsToThePreviousCommand : Obligations.ResponseBelongsToThePreviousCommand := by
  refine ⟨fun s i tx noise b code hbus henc hpending => exec_wire_returns hbus henc hpending,
    fun s t j i txj txi a noise rx b n _ hbus hrx hj hi hexec hmode => ?_⟩
  rw [exec_wire_done hj hbus hrx] at hexec
  cases hexec
  obtain ⟨cmd, hcmd, rfl⟩ := command_of_encode hj
  refine exec_wire_returns rfl hi ?_
  rw [State.wireDone, Dev.receive_command] at hmode ⊢
  exact s.dev.starts_command hcmd n hmode

end Sys2Proof.Machine
end

section
/-! PROOFS. The passes of SCAN_ALL against DEV (R260, R263, R353): what DEV is after some frames, what it returns on
frames it answers all, and which conversion each frame of a pass leaves pending for the next one. -/

namespace Sys2Proof.Machine

open Sys2Proof

/-! ## Frames that DEV answers (R251, R261) -/

/-- DEV after some frames. -/
def devAfter (c : Config) (d : Dev) (fs : List FrameReq) : Dev := fs.foldl (fun d f => d.receive c f.1 f.2) d

/-- The words DEV returns on some frames, the bits it leaves open taken from `noises`. -/
def devWords (c : Config) : Dev → List FrameReq → List (BitVec 32) → List (BitVec 32)
  | d, f :: fs, noise :: noises => d.returns f.1 noise :: devWords c (d.receive c f.1 f.2) fs noises
  | _, _, _ => []

/-- The code of a conversion depends on the channel and on the number of frames before it (R261). -/
theorem Dev.sample_congr {d e : Dev} (hsampler : e.sampler = d.sampler) (hframes : e.frames = d.frames) (n : Chan) :
    e.sample n = d.sample n := by
  rw [Dev.sample, Dev.sample, hsampler, hframes]

section
variable (c : Config) (d : Dev)

theorem devAfter_command (fs : List FrameReq) (cmd : BitVec 16) :
    devAfter c d (fs ++ [cmdReq cmd]) = (devAfter c d fs).receive c .w32 (cmdFrame cmd) :=
  List.foldl_concat _ _ _ _

theorem devAfter_counts (fs : List FrameReq) :
    (devAfter c d fs).sampler = d.sampler ∧ (devAfter c d fs).frames = d.frames + fs.length := by
  induction fs generalizing d with
  | nil => exact ⟨rfl, rfl⟩
  | cons f fs ih =>
    obtain ⟨hsampler, hframes⟩ := ih (d.receive c f.1 f.2)
    exact ⟨hsampler.trans (d.receive_sampler c _ _), hframes.trans (Nat.add_right_comm _ _ _)⟩

theorem devAfter_sample (fs : List FrameReq) (n : Chan) :
    (devAfter c d fs).sample n = { d with frames := d.frames + fs.length }.sample n := by
  obtain ⟨hsampler, hframes⟩ := devAfter_counts c d fs
  exact Dev.sample_congr (d := { d with frames := d.frames + fs.length }) hsampler hframes n

/-- Answers of DEV complete every frame. -/
theorem exchange_device {fs : List FrameReq} {noises : List (BitVec 32)} (hlen : noises.length = fs.length)
    (b : List BusAnswer) :
    exchange c d fs (noises.map .device ++ b) = some (devWords c d fs noises, devAfter c d fs, b) := by
  induction fs generalizing d noises with
  | nil =>
    cases List.length_eq_zero_iff.mp hlen
    rfl
  | cons f fs ih =>
    obtain ⟨noise, noises, rfl⟩ := List.exists_of_length_succ noises hlen
    have hrest := ih (d.receive c f.1 f.2) (Nat.succ.inj hlen)
    simp only [List.map_cons, List.cons_append, exchange, BusAnswer.word, hrest]
    rfl

/-- The word of a command frame holds the conversion that the frames before it left pending (R251). -/
theorem devWords_low {fs : List FrameReq} {noises : List (BitVec 32)} (hlen : noises.length = fs.length)
    (hwidth : ∀ f ∈ fs, f.1 = .w32) {j : Nat} (hj : j < fs.length) {code : Code}
    (hpending : (devAfter c d (fs.take j)).pending = some code) :
    ((devWords c d fs noises).getD j 0).extractLsb' 0 16 = code := by
  induction fs generalizing d noises j with
  | nil => cases hj
  | cons f fs ih =>
    obtain ⟨noise, noises, rfl⟩ := List.exists_of_length_succ noises hlen
    obtain ⟨hf, hfs⟩ := List.forall_mem_cons.mp hwidth
    cases j with
    | zero =>
      rw [devWords, hf]
      exact Dev.returns_pending noise hpending
    | succ j => exact ih _ (Nat.succ.inj hlen) hfs (Nat.lt_of_succ_lt_succ hj) hpending

end

/-! ## The lanes of a pass (R206) -/

theorem resultLanes_getElem (rs : List (BitVec 32)) (c : Chan) :
    (resultLanes rs)[c] = (rs.getD c.val 0).extractLsb' 0 16 := by
  simp [resultLanes]

theorem resultLanes_drop_getElem (rs : List (BitVec 32)) (c : Chan) :
    (resultLanes (rs.drop 1))[c] = (rs.getD (c.val + 1) 0).extractLsb' 0 16 := by
  simp [resultLanes]

theorem manualFrames_width (c : Config) : ∀ f ∈ manualFrames c, f.1 = .w32 := by
  intro f hf
  rcases List.mem_append.mp hf with h | h
  · obtain ⟨n, _, rfl⟩ := List.mem_map.mp h; rfl
  · rw [List.mem_singleton.mp h]; rfl

theorem autoFrames_width (c : Config) : ∀ f ∈ autoFrames c, f.1 = .w32 := by
  intro f hf
  rcases List.mem_append.mp hf with h | h
  · rw [List.eq_of_mem_replicate h]; rfl
  · rw [List.mem_singleton.mp h]; rfl

/-! ## The conversions of a pass (R260, R263) -/

/-- Which channels are in sequence depends on the registers alone. -/
theorem Dev.inSequence_of_pr {c : Config} {d e : Dev} (h : e.pr = d.pr) (n : Chan) :
    e.inSequence c n = d.inSequence c n := by
  simp only [Dev.inSequence, Dev.reg, h]

section
variable {c : Config} (hnodup : c.commands.Nodup)
include hnodup

/-- The select frame of a channel starts its conversion. -/
theorem manualFrames_pending (d : Dev) (n : Chan) :
    (devAfter c d ((manualFrames c).take (n.val + 1))).pending =
      some ({ d with frames := d.frames + n.val }.sample n) := by
  have htake : (manualFrames c).take (n.val + 1) = (manualFrames c).take n.val ++ [cmdReq c.opcManCh[n]] := by
    fin_cases n <;> rfl
  have hlen : ((manualFrames c).take n.val).length = n.val := by
    fin_cases n <;> rfl
  rw [htake, devAfter_command, Dev.receive_opcManCh _ hnodup]
  have hsample := devAfter_sample c d ((manualFrames c).take n.val) n
  rw [hlen] at hsample
  exact congrArg some hsample

variable {d : Dev} (hseq : ∀ n, d.inSequence c n = true)
include hseq

/-- With all channels in sequence W.NO_OP takes DEV from a channel to the one above it. -/
theorem Dev.receive_opcNoOp_next {k : Nat} (hk : k + 1 < 8) (hmode : d.mode = .auto ⟨k, Nat.lt_of_succ_lt hk⟩) :
    d.receive c .w32 (cmdFrame c.opcNoOp) =
      { d.convert (.auto ⟨k + 1, hk⟩) ⟨k + 1, hk⟩ with frames := d.frames + 1 } := by
  have hafter : d.after c ⟨k, Nat.lt_of_succ_lt hk⟩ = some ⟨k + 1, hk⟩ :=
    Dev.after_above (hseq _) (Nat.lt_succ_self k) fun j hlo hhi => absurd hhi (Nat.not_lt.mpr hlo)
  rw [Dev.receive_opcNoOp d hnodup, Dev.noOp_auto hmode hafter]

theorem devAfter_noOps (hmode : d.mode = .auto 0) {k : Nat} (hk : k < 8) :
    (devAfter c d (List.replicate k (cmdReq c.opcNoOp))).mode = .auto ⟨k, hk⟩ ∧
      (devAfter c d (List.replicate k (cmdReq c.opcNoOp))).pr = d.pr := by
  induction k with
  | zero => exact ⟨hmode, rfl⟩
  | succ k ih =>
    obtain ⟨hk_mode, hk_pr⟩ := ih (Nat.lt_of_succ_lt hk)
    have hk_seq := fun n => (Dev.inSequence_of_pr (c := c) hk_pr n).trans (hseq n)
    rw [List.replicate_succ', devAfter_command, Dev.receive_opcNoOp_next hnodup hk_seq hk hk_mode]
    exact ⟨rfl, hk_pr⟩

/-- From channel 0 on, each W.NO_OP starts the conversion of the next channel. -/
theorem autoFrames_pending (hmode : d.mode = .auto 0) {k : Nat} (hk : k + 1 < 8) :
    (devAfter c d ((autoFrames c).take (k + 1))).pending =
      some ({ d with frames := d.frames + k }.sample ⟨k + 1, hk⟩) := by
  have htake : (autoFrames c).take (k + 1) = List.replicate k (cmdReq c.opcNoOp) ++ [cmdReq c.opcNoOp] := by
    rw [autoFrames, List.take_append_of_le_length (by rw [List.length_replicate]; omega), List.take_replicate,
      Nat.min_eq_left (by omega), List.replicate_succ']
  obtain ⟨hk_mode, hk_pr⟩ := devAfter_noOps hnodup hseq hmode (Nat.lt_of_succ_lt hk)
  have hk_seq := fun n => (Dev.inSequence_of_pr (c := c) hk_pr n).trans (hseq n)
  have hsample := devAfter_sample c d (List.replicate k (cmdReq c.opcNoOp)) ⟨k + 1, hk⟩
  rw [List.length_replicate] at hsample
  rw [htake, devAfter_command, Dev.receive_opcNoOp_next hnodup hk_seq hk hk_mode]
  exact congrArg some hsample

/-- The priming restart starts the conversion of channel 0, and the frames after it those of the others. -/
theorem primedFrames_pending (n : Chan) :
    (devAfter c d ((cmdReq c.opcAutoRst :: autoFrames c).take (n.val + 1))).pending =
      some ({ d with frames := d.frames + n.val }.sample n) := by
  have hrestart : d.receive c .w32 (cmdFrame c.opcAutoRst) = { d.convert (.auto 0) 0 with frames := d.frames + 1 } := by
    rw [Dev.receive_opcAutoRst d hnodup,
      Dev.autoRst_some (Dev.lowest_eq_some (hseq 0) fun j hj => absurd hj (Fin.not_lt_zero j))]
  change (devAfter c (d.receive c .w32 (cmdFrame c.opcAutoRst)) ((autoFrames c).take n.val)).pending = _
  obtain ⟨_ | k, hn⟩ := n
  · exact congrArg Dev.pending hrestart
  · have hpr : (d.receive c .w32 (cmdFrame c.opcAutoRst)).pr = d.pr := by rw [hrestart]; rfl
    have hseq' := fun n => (Dev.inSequence_of_pr hpr n).trans (hseq n)
    rw [autoFrames_pending hnodup hseq' (congrArg Dev.mode hrestart) hn]
    refine congrArg some (Dev.sample_congr ?_ ?_ _)
    · exact d.receive_sampler c _ _
    · exact Nat.add_right_comm _ _ _

end

/-! ## The statements -/

/-- Settles O52: lane `c` is the word of frame `c + 1`, before which the select frame of `c` came. -/
theorem manualPassReadsItsOwnConversions : Obligations.ManualPassReadsItsOwnConversions := by
  intro s noises b hport hidle hlock hrst hdrv hman hc hlen hbus
  obtain ⟨hnodup, _⟩ := s.cfg.addressesOk_iff.mp hc
  have hex := exchange_device s.cfg s.dev (fs := manualFrames s.cfg) hlen b
  rw [← hbus] at hex
  obtain ⟨t, hexec, hview⟩ := manualPassCapturesEightResults s _ _ b hport hidle hlock hrst hdrv hman hex
  refine ⟨t, hexec, congrArg State.busIn hview, congrArg State.valid hview, fun c => ?_⟩
  have hcode : t.code = resultLanes ((devWords s.cfg s.dev (manualFrames s.cfg) noises).drop 1) :=
    congrArg State.code hview
  rw [hcode, resultLanes_drop_getElem]
  exact devWords_low _ _ hlen (manualFrames_width _) (Nat.succ_lt_succ c.isLt) (manualFrames_pending hnodup s.dev c)

/-- Settles O53: the priming restart of an unarmed pass leaves DEV where an armed pass starts, at channel 0. -/
theorem autoPassReadsTheSequence : Obligations.AutoPassReadsTheSequence := by
  intro s noises b hport hidle hlock hrst hdrv hauto hc hseq hbus
  obtain ⟨hnodup, _⟩ := s.cfg.addressesOk_iff.mp hc
  have hpasses := autoPassCapturesEightResults s
  refine ⟨fun hunarmed hlen => ?_, fun code harmed hlen hmode hpending => ?_⟩
  · have hex := exchange_device s.cfg s.dev (fs := cmdReq s.cfg.opcAutoRst :: autoFrames s.cfg) hlen b
    rw [← hbus] at hex
    obtain ⟨t, hexec, hview⟩ := (hpasses _ _ b hport hidle hlock hrst hdrv hauto).2 hunarmed hex
    refine ⟨t, hexec, congrArg State.busIn hview, congrArg State.valid hview, fun c => ?_⟩
    have hcode : t.code =
        resultLanes ((devWords s.cfg s.dev (cmdReq s.cfg.opcAutoRst :: autoFrames s.cfg) noises).drop 1) :=
      congrArg State.code hview
    rw [hcode, resultLanes_drop_getElem]
    exact devWords_low _ _ hlen (List.forall_mem_cons.mpr ⟨rfl, autoFrames_width _⟩) (Nat.succ_lt_succ c.isLt)
      (primedFrames_pending hnodup hseq c)
  · have hex := exchange_device s.cfg s.dev (fs := autoFrames s.cfg) hlen b
    rw [← hbus] at hex
    obtain ⟨t, hexec, hview⟩ := (hpasses _ _ b hport hidle hlock hrst hdrv hauto).1 harmed hex
    have hcode : t.code = resultLanes (devWords s.cfg s.dev (autoFrames s.cfg) noises) := congrArg State.code hview
    have hlane : ∀ (c : Chan) {code : Code},
        (devAfter s.cfg s.dev ((autoFrames s.cfg).take c.val)).pending = some code → t.code[c] = code := by
      intro c code hpending
      rw [hcode, resultLanes_getElem]
      exact devWords_low _ _ hlen (autoFrames_width _) c.isLt hpending
    refine ⟨t, hexec, congrArg State.busIn hview, congrArg State.valid hview, hlane 0 hpending, ?_⟩
    rintro ⟨_ | k, hk⟩ hpos
    · cases hpos
    · exact hlane ⟨k + 1, hk⟩ (autoFrames_pending hnodup hseq hmode hk)

end Sys2Proof.Machine
end

section
/-! PROOFS. SCHED's own moves (45_sampling_scheduler.md: R281, R282, R284, R285, R287 to R289): its start, and steps 2
to 5 of an iteration. -/

namespace Sys2Proof.Machine

open Sys2Proof

/-! ## A step takes the move of SCHED at the head of the inbox -/

section
variable {s : State} {l : List Input} (hwf : s.cfg.wf = true) (hbusy : s.busy = false)
include hwf hbusy

theorem step_schedStart {now : Time} (hin : s.inbox = .schedStart now :: l) :
    step s = .next (schedStart now { s.clearOutputs with inbox := l }) := by
  rw [step_idle hwf hbusy, State.stepFree, State.clearOutputs_inbox, hin]

theorem step_iterate {scan8 : Bool} {now wake : Time} (hin : s.inbox = .iterate scan8 now wake :: l) :
    step s = .next (iterateMove scan8 now wake l s.clearOutputs) := by
  rw [step_idle hwf hbusy, State.stepFree, State.clearOutputs_inbox, hin]

theorem step_report (hin : s.inbox = .report :: l) :
    step s = .next (schedReport { s.clearOutputs with inbox := l }) := by
  rw [step_idle hwf hbusy, State.stepFree, State.clearOutputs_inbox, hin]

theorem step_finish {now wake : Time} (hin : s.inbox = .finish now wake :: l) :
    step s = .next (schedFinish now wake { s.clearOutputs with inbox := l }) := by
  rw [step_idle hwf hbusy, State.stepFree, State.clearOutputs_inbox, hin]

end

/-! ## Before the start (R281) -/

theorem iterateMove_notStarted (scan8 : Bool) (now wake : Time) (l : List Input) {s : State}
    (h : s.sched.started = false) : iterateMove scan8 now wake l s = { s with inbox := l } := if_neg (by simp [h])

theorem schedReport_notStarted {s : State} (h : s.sched.started = false) : schedReport s = s := if_pos (.inl h)

/-- Settles O55: DRV_STATE decides the start, and every other move of SCHED first looks whether it has started. -/
theorem noIterationBeforeTheStart : Obligations.NoIterationBeforeTheStart := by
  intro s l hwf hbusy
  refine ⟨fun now hin => ⟨fun hready => ?_, fun hready => ?_⟩, fun hstarted hmove => ?_⟩
  · rw [step_schedStart hwf hbusy hin, schedStart_ready (s := { s.clearOutputs with inbox := l }) now hready]
    rfl
  · rw [step_schedStart hwf hbusy hin, schedStart_notReady (s := { s.clearOutputs with inbox := l }) now hready]
  · rcases hmove with ⟨scan8, now, wake, hin⟩ | hin | ⟨now, wake, hin⟩
    · rw [step_iterate hwf hbusy hin, iterateMove_notStarted (s := s.clearOutputs) _ _ _ _ hstarted]
    · rw [step_report hwf hbusy hin, schedReport_notStarted (s := { s.clearOutputs with inbox := l }) hstarted]
    · rw [step_finish hwf hbusy hin, schedFinish_notStarted (s := { s.clearOutputs with inbox := l }) _ _ hstarted]

/-! ## Steps 2 to 5 of an iteration (R284, R285, R287 to R289) -/

/-- `s` after steps 2 to 5 of an iteration in time: the deadline advances by one period, and SCHED sleeps until then,
or until `wake` where that is later (R284, R287). -/
def State.slept (s : State) (wake : Time) : State :=
  { s with
    now := max (s.sched.deadline + s.period) wake, sched := { s.sched with deadline := s.sched.deadline + s.period } }

section
variable {s : State} (hstarted : s.sched.started = true) {now wake : Time}
include hstarted

/-- An iteration that reaches step 3 before its next deadline sleeps until then or later. -/
theorem schedFinish_slept (hnow : max s.now now < s.sched.deadline + s.period) :
    schedFinish now wake s = s.slept wake := by
  have hwake : max (max s.now now) (max (s.sched.deadline + s.period) wake) = max (s.sched.deadline + s.period) wake :=
    max_eq_right (hnow.le.trans (le_max_left _ _))
  rw [schedFinish_inTime now wake hstarted (sub_pos.mpr hnow)]
  simp only [State.sleepUntil, State.readNow, State.slept, hwake]

/-- An iteration that reaches step 3 at its next deadline or later reports the overrun and restarts from now. -/
theorem schedFinish_overrun (hread : s.now ≤ now) (hlate : s.sched.deadline + s.period ≤ now) :
    schedFinish now wake s =
      { s with
        now := now,
        sched := { s.sched with
          deadline := now, missed := s.sched.missed + 1,
          reports := s.sched.reports ++ [.deadlineMissed (now - (s.sched.deadline + s.period))] } } := by
  have hmax : max s.now now = now := max_eq_right hread
  have hmissed := schedFinish_missed now wake hstarted (by rw [hmax]; exact sub_nonpos.mpr hlate)
  rw [hmissed, hmax, neg_sub, State.readNow, hmax]

end

/-- Settles O57: step 3 is reached at the next deadline or later, or before it. -/
theorem overrunIsReportedOnce : Obligations.OverrunIsReportedOnce := by
  intro s d wake l hwf hbusy hstarted hin hnow
  refine ⟨_, step_finish hwf hbusy hin, ?_⟩
  let u : State := { s.clearOutputs with inbox := l }
  rcases le_or_gt s.period d with hlate | htime
  · rw [schedFinish_overrun (s := u) hstarted hnow (add_le_add_right hlate s.sched.deadline)]
    refine ⟨rfl, fun _ => ⟨rfl, ?_⟩, fun h => absurd h (not_lt.mpr hlate)⟩
    rw [← add_sub_add_left_eq_sub d s.period s.sched.deadline]
    rfl
  · have hslept : max s.now (s.sched.deadline + d) < s.sched.deadline + s.period :=
      (max_eq_right hnow).symm ▸ add_lt_add_right htime s.sched.deadline
    rw [schedFinish_slept (s := u) hstarted hslept]
    exact ⟨rfl, fun h => absurd h (not_le.mpr htime), fun _ => ⟨rfl, rfl⟩⟩

end Sys2Proof.Machine
end

section
/-! PROOFS. The scans of an iteration (45_sampling_scheduler.md: R222, R282, R283): where BUS answers every frame whole,
each READ_CH of SCAN8, and SCAN_ALL, is answered within its step, and leaves SCHED as it was. -/

namespace Sys2Proof.Machine

open Sys2Proof

/-! ## Answers of BUS that take every frame whole -/

/-- BUS has the answers of `n` frames or more at hand, each of them whole. -/
structure State.Supplied (n : Nat) (s : State) : Prop where
  whole : ∀ a ∈ s.busIn, a.isWhole = true
  enough : n ≤ s.busIn.length

theorem State.Supplied.drop {m n k : Nat} {s t : State} (h : s.Supplied (m + n)) (hbus : t.busIn = s.busIn.drop k)
    (hk : k ≤ m) : t.Supplied n where
  whole a ha := h.whole a (List.mem_of_mem_drop (hbus ▸ ha))
  enough := by
    have henough := h.enough
    rw [hbus, List.length_drop]
    omega

theorem BusAnswer.word_or_fault {a : BusAnswer} (h : a.isWhole = true) (d : Dev) (w : Width) :
    (∃ rx, a.word d w = some rx) ∨ a.isFault = true := by
  rcases a.cases_of d w with hrx | hfault | rfl
  · exact .inl hrx
  · exact .inr hfault
  · cases h

theorem exchange_cons_of_word {c : Config} {d d' : Dev} {f : FrameReq} {fs : List FrameReq} {a : BusAnswer}
    {bs b : List BusAnswer} {rx : BitVec 32} {rxs : List (BitVec 32)} (ha : a.word d f.1 = some rx)
    (h : exchange c (d.receive c f.1 f.2) fs bs = some (rxs, d', b)) :
    exchange c d (f :: fs) (a :: bs) = some (rx :: rxs, d', b) := by
  simp [exchange, ha, h]

theorem exchange_rest {c : Config} {d d' : Dev} {fs : List FrameReq} {bs b : List BusAnswer} {rxs : List (BitVec 32)}
    (h : exchange c d fs bs = some (rxs, d', b)) : b = bs.drop fs.length := by
  induction fs generalizing d bs rxs with
  | nil => cases h; rfl
  | cons f fs ih =>
    obtain ⟨a, bs, _, _, rfl, _, hrest, _⟩ := exchange_cons h
    exact ih hrest

/-- Whole answers complete all of the frames, or some of them up to one that faults. -/
theorem exchange_whole (c : Config) (d : Dev) {fs : List FrameReq} {bs : List BusAnswer}
    (hwhole : ∀ a ∈ bs, a.isWhole = true) (hlen : fs.length ≤ bs.length) :
    (∃ rxs d' b, exchange c d fs bs = some (rxs, d', b)) ∨
      ∃ m rxs d' a b, m < fs.length ∧ exchange c d (fs.take m) bs = some (rxs, d', a :: b) ∧ a.isFault = true := by
  induction fs generalizing d bs with
  | nil => exact .inl ⟨[], d, bs, rfl⟩
  | cons f fs ih =>
    obtain ⟨a, bs, rfl⟩ := List.exists_cons_of_length_pos (Nat.lt_of_lt_of_le (Nat.succ_pos _) hlen)
    obtain ⟨ha, hbs⟩ := List.forall_mem_cons.mp hwhole
    rcases BusAnswer.word_or_fault ha d f.1 with ⟨rx, hrx⟩ | hfault
    · rcases ih (d.receive c f.1 f.2) hbs (Nat.le_of_succ_le_succ hlen) with
        ⟨rxs, d', b, hex⟩ | ⟨m, rxs, d', a', b, hm, hex, hfault⟩
      · exact .inl ⟨_, _, _, exchange_cons_of_word hrx hex⟩
      · exact .inr ⟨m + 1, _, _, _, _, Nat.succ_lt_succ hm, exchange_cons_of_word hrx hex, hfault⟩
    · exact .inr ⟨0, [], d, a, bs, Nat.succ_pos _, rfl, hfault⟩

/-! ## What a scan leaves of its state -/

/-- Nothing is in progress, and the next word of port P runs without a hardware reset. -/
structure State.Available (s : State) : Prop where
  wf : s.cfg.wf = true
  busy : s.busy = false
  idle : s.ft.state = .idle
  lock : s.bufLock = .free
  noRst : s.NoRst

/-- What SCHED sees that no scan writes. -/
structure State.ScanKeeps (s t : State) : Prop where
  cfg : t.cfg = s.cfg := by rfl
  drvState : t.drvState = s.drvState := by rfl
  sched : t.sched = s.sched := by rfl
  now : t.now = s.now := by rfl
  inbox : t.inbox = s.inbox := by rfl

/-- `t` is what a scan of `s` leaves that is answered with `st` after `n` answers of BUS. -/
structure State.Answers (s : State) (st : Status) (n : Nat) (t : State) : Prop where
  available : t.Available
  kept : s.ScanKeeps t
  status : t.curStatus = st
  bus : t.busIn = s.busIn.drop n

/-- `s` with a word taken from its inbox and presented on port P; `l` is the rest of the inbox. -/
def State.presented (s : State) (l : List Input) : State := { s.clearOutputs with inbox := l, port := .P }

theorem State.Available.accepts {s : State} (h : s.Available) (l : List Input) : (s.presented l).Accepts :=
  ⟨rfl, h.idle, h.lock, h.noRst⟩

/-- An operation of port P runs to the answer that the owner sees. -/
theorem State.Accepts.answers {s t u : State} (h : s.Accepts) (hwf : s.cfg.wf = true) {i : Instr}
    (hexec : exec i s = .next t) {cw : HostWord} {k n : Nat} {r : Response} {evs : List Event}
    (hview : t.ownerView = u.answered cw k r evs) (hidle : u.ft.state = .idle) (hbus : u.busIn = s.busIn.drop n)
    (hkept : s.ScanKeeps u := by exact {}) (hlock : u.bufLock = s.bufLock := by rfl) :
    s.Answers r.status n t := by
  have seen : ∀ {α : Type} (f : State → α), f t.ownerView = f (u.answered cw k r evs) := fun f => congrArg f hview
  exact {
    available := {
      wf := ((seen State.cfg).trans hkept.cfg) ▸ hwf
      busy := seen State.busy
      idle := (seen fun x => x.ft.state).trans hidle
      lock := (seen State.bufLock).trans (hlock.trans h.lock)
      noRst := (exec_accepts h.port h.noRst hexec).2 }
    kept := {
      cfg := (seen State.cfg).trans hkept.cfg
      drvState := (seen State.drvState).trans hkept.drvState
      sched := (seen State.sched).trans hkept.sched
      now := (seen State.now).trans hkept.now
      inbox := (seen State.inbox).trans hkept.inbox }
    status := seen State.curStatus
    bus := (seen State.busIn).trans hbus }

/-! ## SCAN_ALL -/

theorem scanAllOp_refuses {v : State} (h : v.Calm) (cw : HostWord) (hdrv : v.drvState ≠ .ready) :
    scanAllOp.run seqFuel (v.acceptP cw) = v.answered cw 0 (Response.error .notInitialized) [] := by
  have hstart : noFrame (scanStart (v.within cw 0 [])) = noFrame ((v.within cw 0 []).raise .notInitialized) :=
    congrArg noFrame (if_neg hdrv)
  exact (h.answers (k := 0) (evs := []) (u := v) (scanAllOp_step_both hstart hstart)).ends

theorem State.passFrames_length_le (s : State) : s.passFrames.length ≤ 9 := by
  have hpos := s.firstStep_pos
  rw [s.passFrames_eq, stepFrames_length]
  omega

section
variable {s : State} (h : s.Accepts) (hwf : s.cfg.wf = true)
include h hwf

theorem exec_scanAll_refused (hdrv : s.drvState ≠ .ready) :
    ∃ t, exec .scanAll s = .next t ∧ s.Answers .notInitialized 0 t := by
  obtain ⟨t, hexec, hview⟩ := h.exec_view (i := .scanAll) rfl
  exact ⟨t, hexec, h.answers hwf hexec (hview.trans (scanAllOp_refuses h.calm _ hdrv)) h.idle rfl⟩

variable (hdrv : s.drvState = .ready) {rs : List (BitVec 32)} {d : Dev}
include hdrv

theorem exec_scanAll_completed {b : List BusAnswer}
    (hex : exchange s.cfg s.dev s.passFrames s.busIn = some (rs, d, b)) :
    ∃ t, exec .scanAll s = .next t ∧ s.Answers .ok s.passFrames.length t := by
  obtain ⟨t, hexec, hview⟩ := h.exec_view (i := .scanAll) rfl
  exact ⟨t, hexec, h.answers hwf hexec (hview.trans (scanAllOp_completes h.calm _ h.lock hdrv hex)) rfl
    (exchange_rest hex)⟩

theorem exec_scanAll_faulted {m : Nat} (hm : m < s.passFrames.length) {a : BusAnswer} {b : List BusAnswer}
    (hex : exchange s.cfg s.dev (s.passFrames.take m) s.busIn = some (rs, d, a :: b)) (hfault : a.isFault = true) :
    ∃ t, exec .scanAll s = .next t ∧ s.Answers .busFault (m + 1) t := by
  obtain ⟨t, hexec, hview⟩ := h.exec_view (i := .scanAll) rfl
  have hrest : b = s.busIn.drop (m + 1) := by
    have hdrop := exchange_rest hex
    rw [List.length_take_of_le hm.le] at hdrop
    rw [← List.drop_drop, ← hdrop]
    rfl
  rw [s.passFrames_eq, stepFrames_length] at hm
  rw [s.passFrames_eq, stepFrames_take _ _ _ hm.le] at hex
  exact ⟨t, hexec, h.answers hwf hexec
    (hview.trans (scanAllOp_faults h.calm _ h.lock hdrv (m := m) (show s.firstStep + m ≤ 9 by omega) hex hfault))
    (a.ftAfterFault_idle (ftAfterFrames_idle h.idle _ _) _ _ _) hrest⟩

omit hdrv in
/-- However SCAN_ALL is answered, it takes no more answers of BUS than a pass has frames. -/
theorem exec_scanAll (hbus : s.Supplied 9) :
    ∃ t st n, exec .scanAll s = .next t ∧ n ≤ 9 ∧ s.Answers st n t := by
  by_cases hdrv : s.drvState = .ready
  · have hlen := s.passFrames_length_le
    rcases exchange_whole s.cfg s.dev hbus.whole (hlen.trans hbus.enough) with
      ⟨rs, d, b, hex⟩ | ⟨m, rs, d, a, b, hm, hex, hfault⟩
    · obtain ⟨t, hexec, ht⟩ := exec_scanAll_completed h hwf hdrv hex
      exact ⟨t, _, _, hexec, hlen, ht⟩
    · obtain ⟨t, hexec, ht⟩ := exec_scanAll_faulted h hwf hdrv hm hex hfault
      exact ⟨t, _, _, hexec, hm.trans_le hlen, ht⟩
  · obtain ⟨t, hexec, ht⟩ := exec_scanAll_refused h hwf hdrv
    exact ⟨t, _, _, hexec, Nat.zero_le _, ht⟩

end

/-! ## READ_CH -/

theorem flag_setFlag_of_ne (v : BitVec 8) {c d : Chan} (h : c ≠ d) : flag (setFlag v c) d = flag v d := by
  rw [flag_setFlag, decide_eq_false h, Bool.or_false]

theorem flag_clearFlag_of_ne (v : BitVec 8) {c d : Chan} (h : c ≠ d) : flag (clearFlag v c) d = flag v d := by
  rw [flag_clearFlag, decide_eq_false h, Bool.not_false, Bool.and_true]

/-- The status of a READ_CH of channel `c`, as the driver state and the flags after it tell. -/
def readChStatus (drv : DrvState) (valid : BitVec 8) (c : Chan) : Status :=
  if drv = .ready then if flag valid c then .ok else .busFault else .notInitialized

theorem readChStatus_set (valid : BitVec 8) (c : Chan) : readChStatus .ready (setFlag valid c) c = .ok := by
  simp [readChStatus, flag_setFlag]

theorem readChStatus_clear (valid : BitVec 8) (c : Chan) : readChStatus .ready (clearFlag valid c) c = .busFault := by
  simp [readChStatus, flag_clearFlag]

theorem readChLegalOp_refuses {v : State} (h : v.Calm) (cw : HostWord) (c : Chan) (hdrv : v.drvState ≠ .ready) :
    (readChLegalOp c).run seqFuel (v.acceptP cw) = v.answered cw 0 (Response.error .notInitialized) [] :=
  (h.answers (op := readChLegalOp c) (k := 0) (evs := []) (u := v) (congrArg noFrame (if_neg hdrv))).ends

/-- A READ_CH, where BUS has the answers of its two frames: the flag of its channel tells how it was answered, and the
other flags are left. -/
theorem exec_readCh {s : State} (h : s.Accepts) (hwf : s.cfg.wf = true) {ch : Byte} {c : Chan} (hch : ch.toNat = c.val)
    (hbus : s.drvState = .ready → s.Supplied 2) :
    ∃ t n, exec (.readCh ch) s = .next t ∧ n ≤ 2 ∧ s.Answers (readChStatus s.drvState t.valid c) n t ∧
      ∀ d, c ≠ d → flag t.valid d = flag s.valid d := by
  obtain ⟨t, hexec, hview⟩ := h.exec_view (i := .readCh ch) (congrArg some (readChOp_legal hch))
  by_cases hdrv : s.drvState = .ready
  · obtain ⟨hwhole, henough⟩ := hbus hdrv
    match hin : s.busIn, henough, hwhole with
    | a₁ :: a₂ :: b, _, hwhole =>
      rcases BusAnswer.word_or_fault (hwhole a₁ (by simp)) s.dev .w32 with ⟨rx₁, hrx₁⟩ | hfault
      · rcases BusAnswer.word_or_fault (hwhole a₂ (by simp))
            (s.dev.receive s.cfg .w32 (cmdFrame s.cfg.opcManCh[c])) .w32 with ⟨rx₂, hrx₂⟩ | hfault
        · have hrun := hview.trans (readChLegalOp_completes h.calm h.lock hdrv _ c hin hrx₁ hrx₂)
          have hvalid : t.valid = setFlag s.valid c := (State.lanes_of_view hrun).2
          refine ⟨t, 2, hexec, le_rfl, ?_, fun d hd => hvalid ▸ flag_setFlag_of_ne _ hd⟩
          rw [hdrv, hvalid, readChStatus_set]
          exact h.answers hwf hexec hrun rfl (by rw [hin]; rfl)
        · have hrun := hview.trans (readChLegalOp_secondFaults h.calm h.lock hdrv _ c hin hrx₁ hfault)
          have hvalid : t.valid = clearFlag s.valid c := (State.lanes_of_view hrun).2
          refine ⟨t, 2, hexec, le_rfl, ?_, fun d hd => hvalid ▸ flag_clearFlag_of_ne _ hd⟩
          rw [hdrv, hvalid, readChStatus_clear]
          exact h.answers hwf hexec hrun (a₂.ftAfterFault_idle rfl _ _ _) (by rw [hin]; rfl)
      · have hrun := hview.trans (readChLegalOp_firstFaults h.calm h.lock hdrv _ c hin hfault)
        have hvalid : t.valid = clearFlag s.valid c := (State.lanes_of_view hrun).2
        refine ⟨t, 1, hexec, by decide, ?_, fun d hd => hvalid ▸ flag_clearFlag_of_ne _ hd⟩
        rw [hdrv, hvalid, readChStatus_clear]
        exact h.answers hwf hexec hrun (a₁.ftAfterFault_idle h.idle _ _ _) (by rw [hin]; rfl)
  · have hrun := hview.trans (readChLegalOp_refuses h.calm _ c hdrv)
    have hvalid : t.valid = s.valid := (State.lanes_of_view hrun).2
    refine ⟨t, 0, hexec, by decide, ?_, fun d _ => by rw [hvalid]⟩
    rw [readChStatus, if_neg hdrv]
    exact h.answers hwf hexec hrun h.idle rfl

end Sys2Proof.Machine
end

section
/-! PROOFS. Iterations of SCHED (45_sampling_scheduler.md: R222, R282, R283, R287): its own move, the words of the scan,
each looked at, and steps 2 to 5. -/

namespace Sys2Proof.Machine

open Sys2Proof

/-! ## Words of a scan, each looked at (R283) -/

/-- The statuses that SCHED reports of a response with status `st`: none for `Ok` (R283). -/
def failures (st : Status) : List Status := if st = .ok then [] else [st]

/-- `t` is `s` after words of a scan, of which SCHED has reported the responses with the statuses `sts`, and which have
used `n` answers of BUS. -/
structure State.Scanned (s : State) (sts : List Status) (n : Nat) (t : State) : Prop where
  available : t.Available
  cfg : t.cfg = s.cfg
  drvState : t.drvState = s.drvState
  now : t.now = s.now
  sched : t.sched = { s.sched with reports := s.sched.reports ++ sts.map .scanFailed }
  bus : t.busIn = s.busIn.drop n

theorem State.Scanned.refl {s : State} (h : s.Available) : s.Scanned [] 0 s :=
  ⟨h, rfl, rfl, rfl, by rw [List.map_nil, List.append_nil], rfl⟩

theorem State.Scanned.trans {s t u : State} {sts sts' : List Status} {m n : Nat} (h : s.Scanned sts m t)
    (h' : t.Scanned sts' n u) : s.Scanned (sts ++ sts') (m + n) u where
  available := h'.available
  cfg := h'.cfg.trans h.cfg
  drvState := h'.drvState.trans h.drvState
  now := h'.now.trans h.now
  sched := by rw [h'.sched, h.sched, List.map_append, List.append_assoc]
  bus := by rw [h'.bus, h.bus, List.drop_drop]

theorem State.Scanned.started {s t : State} {sts : List Status} {n : Nat} (h : s.Scanned sts n t)
    (hs : s.sched.started = true) : t.sched.started = true := by
  rw [h.sched]; exact hs

/-- SCHED looks at the last response, and its channel of notifications tells it. -/
theorem schedReport_started {s : State} (h : s.sched.started = true) :
    schedReport s =
      { s with sched := { s.sched with reports := s.sched.reports ++ (failures s.curStatus).map .scanFailed } } := by
  by_cases hst : s.curStatus = .ok
  · rw [schedReport, if_pos (.inr hst), failures, if_pos hst, List.map_nil, List.append_nil]
  · rw [schedReport, if_neg (by simp [h, hst]), failures, if_neg hst]
    rfl

/-- The inputs of a scan by the words of `is`: each word, and SCHED's look at its response. -/
def scanInputs (is : List Instr) : List Input := is.flatMap fun i => [.portP (hostWordOf i), .report]

section
variable {s : State} (h : s.Available) (hstarted : s.sched.started = true) {l : List Input}
include h hstarted

/-- A word and the look at its response are two steps, where the word is answered in the first. -/
theorem run_scanWord {i : Instr} (hi : (seqOpOf i).isSome = true) {is : List Instr}
    (hin : s.inbox = scanInputs (i :: is) ++ l) {t : State} {st : Status} {n : Nat}
    (hexec : exec i (s.presented (.report :: (scanInputs is ++ l))) = .next t)
    (ht : (s.presented (.report :: (scanInputs is ++ l))).Answers st n t) :
    ∃ u : State, Sys2Proof.core.run 2 s = .next u ∧ s.Scanned (failures st) n u ∧ u.inbox = scanInputs is ++ l ∧
      u.valid = t.valid := by
  obtain ⟨⟨hwf, hbusy, hidle, hlock, hrst⟩, ⟨hcfg, hdrv, hsched, hnow, hinbox⟩, hstatus, hbus⟩ := ht
  have hword : step s = .next t := by
    rw [step_eq_runWord_P h.wf h.busy hin, State.runWord_ok (decodeHost_hostWordOf hi)]
    exact hexec
  have hlook : step t = .next _ := step_report hwf hbusy hinbox
  rw [schedReport_started (s := { t.clearOutputs with inbox := scanInputs is ++ l })
    ((congrArg Sched.started hsched).trans hstarted)] at hlook
  refine ⟨_, (core_run_succ hword 1).trans (core_run_succ hlook 0),
    ⟨⟨hwf, hbusy, hidle, hlock, hrst⟩, hcfg, hdrv, hnow, ?_, hbus⟩, rfl, rfl⟩
  show { t.sched with reports := t.sched.reports ++ (failures t.curStatus).map SchedReport.scanFailed } = _
  rw [hstatus, hsched]
  rfl

end

/-! ## SCAN8 (R222) -/

/-- READ_CH of channel `c`, as SCAN8 issues it (R116). -/
def scan8Read (c : Chan) : Instr := .readCh (BitVec.ofNat 8 c.val)

theorem scan8_channel (c : Chan) : (BitVec.ofNat 8 c.val).toNat = c.val := by
  rw [BitVec.toNat_ofNat]
  omega

/-- The READ_CH of some channels, each once. The flags of these channels, as the last of them leaves them, tell how
each was answered; the other flags are left. -/
theorem run_scanReads (cs : List Chan) (hcs : cs.Nodup) {s : State} (h : s.Available)
    (hstarted : s.sched.started = true) {l : List Input} (hin : s.inbox = scanInputs (cs.map scan8Read) ++ l)
    (hbus : s.drvState = .ready → s.Supplied (2 * cs.length)) :
    ∃ (t : State) (n : Nat), Sys2Proof.core.run (2 * cs.length) s = .next t ∧ n ≤ 2 * cs.length ∧
      s.Scanned (cs.flatMap fun c => failures (readChStatus s.drvState t.valid c)) n t ∧ t.inbox = l ∧
      ∀ d ∉ cs, flag t.valid d = flag s.valid d := by
  induction cs generalizing s with
  | nil => exact ⟨s, 0, rfl, le_rfl, .refl h, hin, fun _ _ => rfl⟩
  | cons c cs ih =>
    obtain ⟨hc, hcs⟩ := List.nodup_cons.mp hcs
    have hlen : 2 * (c :: cs).length = 2 + 2 * cs.length := by rw [List.length_cons]; omega
    rw [hlen] at hbus ⊢
    obtain ⟨t, m, hexec, hm, ht, hothers⟩ := exec_readCh (h.accepts _) h.wf (scan8_channel c)
      fun hdrv => ⟨(hbus hdrv).whole, (Nat.le_add_right 2 _).trans (hbus hdrv).enough⟩
    obtain ⟨u, hu, hscanned, hinu, hvalid⟩ := run_scanWord h hstarted rfl hin hexec ht
    obtain ⟨v, n, hv, hn, hrest, hinv, hleft⟩ := ih hcs hscanned.available (hscanned.started hstarted) hinu
      fun hdrv => (hbus (hscanned.drvState.symm.trans hdrv)).drop hscanned.bus hm
    have hflag : flag v.valid c = flag t.valid c := by rw [hleft c hc, hvalid]
    have hstatus : readChStatus s.drvState v.valid c = readChStatus s.drvState t.valid c := by
      rw [readChStatus, readChStatus, hflag]
    refine ⟨v, m + n, (core_run_then hu _).trans hv, Nat.add_le_add hm hn, ?_, hinv, fun d hd => ?_⟩
    · rw [hscanned.drvState] at hrest
      rw [List.flatMap_cons, hstatus]
      exact hscanned.trans hrest
    · rw [List.mem_cons, not_or] at hd
      rw [hleft d hd.2, hvalid, hothers d (Ne.symm hd.1)]
      rfl

/-! ## An iteration in time (R282, R287) -/

/-- The instructions of an iteration's scan. -/
def scanInstrs (scan8 : Bool) : List Instr := if scan8 then channels.map scan8Read else [.scanAll]

theorem iterationSteps_eq (scan8 : Bool) : iterationSteps scan8 = 1 + (2 * (scanInstrs scan8).length + 1) := by
  cases scan8 <;> rfl

/-- `s` after SCHED's own move of an iteration: its scan and steps 2 to 5 are the next inputs. -/
def State.iterating (s : State) (scan8 : Bool) (now wake : Time) (l : List Input) : State :=
  { s.clearOutputs with inbox := scanInputs (scanInstrs scan8) ++ .finish now wake :: l }

theorem State.iterating_inbox (s : State) (scan8 : Bool) (now wake : Time) (l : List Input) :
    (s.iterating scan8 now wake l).inbox = scanInputs (scanInstrs scan8) ++ .finish now wake :: l := rfl

/-- A pass has the frames it had before SCHED's move. -/
theorem State.iterating_passFrames (s : State) (scan8 : Bool) (now wake : Time) (l l' : List Input) :
    ((s.iterating scan8 now wake l).presented l').passFrames = s.passFrames := by
  unfold State.passFrames
  rfl

theorem iterateMove_started (scan8 : Bool) (now wake : Time) (l : List Input) {s : State}
    (h : s.sched.started = true) : iterateMove scan8 now wake l s.clearOutputs = s.iterating scan8 now wake l := by
  rw [iterateMove, if_pos (show s.clearOutputs.sched.started = true from h)]
  cases scan8 <;> rfl

theorem State.Available.iterating {s : State} (h : s.Available) (scan8 : Bool) (now wake : Time) (l : List Input) :
    (s.iterating scan8 now wake l).Available := ⟨h.wf, h.busy, h.idle, h.lock, h.noRst⟩

/-- `u` is `s` after an iteration in time, `l` being the rest of the inbox: the responses of its scan that were not `Ok`
had the statuses `sts`, and it used `n` answers of BUS. -/
structure State.Iterated (s : State) (wake : Time) (l : List Input) (sts : List Status) (n : Nat) (u : State) :
    Prop where
  available : u.Available
  cfg : u.cfg = s.cfg
  drvState : u.drvState = s.drvState
  inbox : u.inbox = l
  now : u.now = max (s.sched.deadline + s.period) wake
  sched : u.sched = { s.sched with
    deadline := s.sched.deadline + s.period, reports := s.sched.reports ++ sts.map .scanFailed }
  bus : u.busIn = s.busIn.drop n

section
variable {s : State} (h : s.Available) (hstarted : s.sched.started = true) {scan8 : Bool} {now wake : Time}
variable {l : List Input} (hin : s.inbox = .iterate scan8 now wake :: l)
variable (hsnow : s.now < s.sched.deadline + s.period) (hnow : now < s.sched.deadline + s.period)
include h hstarted hin hsnow hnow

/-- An iteration is SCHED's move, its scan, and steps 2 to 5. -/
theorem run_iteration {t : State} {sts : List Status} {n : Nat}
    (hrun : Sys2Proof.core.run (2 * (scanInstrs scan8).length) (s.iterating scan8 now wake l) = .next t)
    (ht : (s.iterating scan8 now wake l).Scanned sts n t) (hint : t.inbox = .finish now wake :: l) :
    ∃ u : State, Sys2Proof.core.run (iterationSteps scan8) s = .next u ∧ s.Iterated wake l sts n u ∧
      u.valid = t.valid := by
  obtain ⟨⟨hwf, hbusy, hidle, hlock, hrst⟩, hcfg, hdrv, htnow, hsched, hbus⟩ := ht
  have hmove : step s = .next (s.iterating scan8 now wake l) := by
    rw [step_iterate h.wf h.busy hin, iterateMove_started scan8 now wake l hstarted]
  have hperiod : t.sched.deadline + t.period = s.sched.deadline + s.period := by
    rw [hsched, State.period, hcfg]
    rfl
  have htime : max t.now now < t.sched.deadline + t.period := by
    rw [hperiod, htnow]
    exact max_lt hsnow hnow
  have hfinish : step t = .next (State.slept { t.clearOutputs with inbox := l } wake) := by
    rw [step_finish hwf hbusy hint]
    exact congrArg _ (schedFinish_slept (s := { t.clearOutputs with inbox := l })
      ((congrArg Sched.started hsched).trans hstarted) htime)
  refine ⟨State.slept { t.clearOutputs with inbox := l } wake, ?_,
    ⟨⟨hwf, hbusy, hidle, hlock, hrst⟩, hcfg, hdrv, rfl, congrArg (max · wake) hperiod, ?_, hbus⟩, rfl⟩
  · rw [iterationSteps_eq, Nat.add_comm, core_run_succ hmove, core_run_then hrun, core_run_succ hfinish]
    rfl
  · show { t.sched with deadline := t.sched.deadline + t.period } = _
    rw [hperiod, hsched]
    rfl

/-- An iteration by SCAN8, where BUS answers its frames whole. -/
theorem run_iteration_scan8 (hscan8 : scan8 = true) (hbus : s.drvState = .ready → s.Supplied 16) :
    ∃ (u : State) (n : Nat), Sys2Proof.core.run (iterationSteps scan8) s = .next u ∧ n ≤ 16 ∧
      s.Iterated wake l (channels.flatMap fun c => failures (readChStatus s.drvState u.valid c)) n u := by
  subst hscan8
  obtain ⟨t, n, hrun, hn, ht, hint, _⟩ := run_scanReads channels (by decide) (h.iterating true now wake l) hstarted
    (s.iterating_inbox true now wake l) fun hdrv => ⟨(hbus hdrv).whole, (hbus hdrv).enough⟩
  obtain ⟨u, hu, hiter, hvalid⟩ := run_iteration h hstarted hin hsnow hnow hrun ht hint
  exact ⟨u, n, hu, hn, hvalid ▸ hiter⟩

/-- An iteration by SCAN_ALL, which is answered with `st`. -/
theorem run_iteration_scanAll (hscan8 : scan8 = false) {t : State} {st : Status} {n : Nat}
    (hexec : exec .scanAll ((s.iterating false now wake l).presented (.report :: .finish now wake :: l)) = .next t)
    (ht : ((s.iterating false now wake l).presented (.report :: .finish now wake :: l)).Answers st n t) :
    ∃ u : State, Sys2Proof.core.run (iterationSteps scan8) s = .next u ∧ s.Iterated wake l (failures st) n u := by
  subst hscan8
  obtain ⟨u, hrun, hscanned, hinu, _⟩ := run_scanWord (h.iterating false now wake l) hstarted (i := .scanAll) rfl
    (is := []) (s.iterating_inbox false now wake l) hexec ht
  obtain ⟨v, hv, hiter, _⟩ := run_iteration h hstarted hin hsnow hnow hrun hscanned hinu
  exact ⟨v, hv, hiter⟩

/-- An iteration of either kind, however its scan is answered. -/
theorem run_iteration_supplied (hbus : s.Supplied 16) :
    ∃ (u : State) (sts : List Status) (n : Nat), Sys2Proof.core.run (iterationSteps scan8) s = .next u ∧ n ≤ 16 ∧
      s.Iterated wake l sts n u := by
  cases scan8 with
  | true =>
    obtain ⟨u, n, hrun, hn, hiter⟩ := run_iteration_scan8 h hstarted hin hsnow hnow rfl fun _ => hbus
    exact ⟨u, _, n, hrun, hn, hiter⟩
  | false =>
    have hi := h.iterating false now wake l
    obtain ⟨t, st, n, hexec, hn, ht⟩ := exec_scanAll (hi.accepts (.report :: .finish now wake :: l)) hi.wf
      ⟨hbus.whole, le_trans (by decide) hbus.enough⟩
    obtain ⟨u, hrun, hiter⟩ := run_iteration_scanAll h hstarted hin hsnow hnow rfl hexec ht
    exact ⟨u, _, n, hrun, hn.trans (by decide), hiter⟩

end

/-! ## The scan that fails (R283) -/

theorem flatMap_failures_notReady {drv : DrvState} (h : drv ≠ .ready) (valid : BitVec 8) :
    (channels.flatMap fun c => failures (readChStatus drv valid c)) = List.replicate 8 .notInitialized := by
  have hstatus : ∀ c, failures (readChStatus drv valid c) = [.notInitialized] := fun c => by
    rw [readChStatus, if_neg h]; rfl
  simp only [hstatus]
  rfl

theorem flatMap_failures_ready (valid : BitVec 8) (cs : List Chan) :
    (cs.flatMap fun c => failures (readChStatus .ready valid c)) =
      List.replicate (cs.countP fun c => !valid.getLsbD c.val) .busFault := by
  induction cs with
  | nil => rfl
  | cons c cs ih =>
    rw [List.flatMap_cons, ih, List.countP_cons, readChStatus, if_pos rfl, flag]
    cases valid.getLsbD c.val <;> rfl

/-- Settles O58: SCAN_ALL is refused or faults at a frame of its pass, or each READ_CH of SCAN8 is answered as the flags
after it tell. -/
theorem failedScanIsReportedAndTheLoopGoesOn : Obligations.FailedScanIsReportedAndTheLoopGoesOn := by
  intro s scan8 now wake l hwf hbusy hidle hlock hrst hstarted hin hsnow hnow
  have h : s.Available := ⟨hwf, hbusy, hidle, hlock, hrst⟩
  refine ⟨fun st hscan8 hcause => ?_, fun hscan8 hdrv => ?_, fun hscan8 hdrv hwhole henough => ?_⟩
  · subst hscan8
    have hi := h.iterating false now wake l
    have hacc := hi.accepts (.report :: .finish now wake :: l)
    rcases hcause with ⟨hdrv, rfl⟩ | ⟨hdrv, rfl, m, rs, d, a, b, hm, hex, hfault⟩
    · obtain ⟨t, hexec, ht⟩ := exec_scanAll_refused hacc hi.wf hdrv
      obtain ⟨u, hrun, hiter⟩ := run_iteration_scanAll h hstarted hin hsnow hnow rfl hexec ht
      exact ⟨u, hrun, hiter.inbox, hiter.available.busy, hiter.drvState, hiter.sched⟩
    · rw [← s.iterating_passFrames false now wake l (.report :: .finish now wake :: l)] at hm hex
      obtain ⟨t, hexec, ht⟩ := exec_scanAll_faulted hacc hi.wf hdrv hm hex hfault
      obtain ⟨u, hrun, hiter⟩ := run_iteration_scanAll h hstarted hin hsnow hnow rfl hexec ht
      exact ⟨u, hrun, hiter.inbox, hiter.available.busy, hiter.drvState, hiter.sched⟩
  · subst hscan8
    obtain ⟨u, n, hrun, _, hiter⟩ := run_iteration_scan8 h hstarted hin hsnow hnow rfl fun hr => absurd hr hdrv
    rw [flatMap_failures_notReady hdrv] at hiter
    exact ⟨u, hrun, hiter.inbox, hiter.available.busy, hiter.drvState, hiter.sched⟩
  · subst hscan8
    obtain ⟨u, n, hrun, _, hiter⟩ := run_iteration_scan8 h hstarted hin hsnow hnow rfl fun _ => ⟨hwhole, henough⟩
    rw [hdrv, flatMap_failures_ready] at hiter
    refine ⟨u, hrun, hiter.inbox, hiter.available.busy, hiter.drvState.trans hdrv, ?_⟩
    rw [hiter.sched, List.map_replicate]

/-! ## Iterations that meet their deadline (R287) -/

theorem State.period_pos {s : State} (h : s.cfg.wf = true) : 0 < s.period := by
  have htimes := ((Config.wf_iff _).mp h).2
  simp only [Config.timesOk, Bool.and_eq_true, decide_eq_true_eq] at htimes
  exact htimes.2

theorem filter_isMissed_scanFailed (sts : List Status) :
    (sts.map SchedReport.scanFailed).filter SchedReport.isMissed = [] := by
  rw [List.filter_eq_nil_iff, List.forall_mem_map]
  exact fun _ _ => nofun

/-- Since `s` SCHED has missed no deadline and reported none as missed, and its deadline has advanced by `k` periods. -/
structure State.OnTime (s : State) (k : Nat) (t : State) : Prop where
  started : t.sched.started = s.sched.started
  deadline : t.sched.deadline = s.sched.deadline + k * s.period
  missed : t.sched.missed = s.sched.missed
  reports : t.sched.reports.filter SchedReport.isMissed = s.sched.reports.filter SchedReport.isMissed

theorem State.Iterated.onTime {s u : State} {wake : Time} {l : List Input} {sts : List Status} {n : Nat}
    (h : s.Iterated wake l sts n u) : s.OnTime 1 u := by
  refine ⟨?_, ?_, ?_, ?_⟩ <;> rw [h.sched]
  · rw [Nat.cast_one, one_mul]
  · rw [List.filter_append, filter_isMissed_scanFailed, List.append_nil]

theorem State.OnTime.trans {s t u : State} {k : Nat} (h : s.OnTime 1 t) (hcfg : t.cfg = s.cfg) (h' : t.OnTime k u) :
    s.OnTime (k + 1) u where
  started := h'.started.trans h.started
  deadline := by
    have hperiod : t.period = s.period := congrArg Config.samplePeriod hcfg
    rw [h'.deadline, h.deadline, hperiod]
    push_cast
    ring
  missed := h'.missed.trans h.missed
  reports := h'.reports.trans h.reports

/-- Any number of iterations of either kind, the k-th of which meets its deadline. -/
theorem run_iterations (its : List (Bool × Time × Time)) {s : State} (h : s.Available)
    (hstarted : s.sched.started = true) {l : List Input}
    (hin : s.inbox = its.map (fun x => .iterate x.1 x.2.1 x.2.2) ++ l) (hbus : s.Supplied (16 * its.length))
    (hsnow : s.now < s.sched.deadline + s.period)
    (htimes : ∀ (k : Nat) (hk : k < its.length), its[k].2.1 < s.sched.deadline + (k + 1) * s.period ∧
      its[k].2.2 < s.sched.deadline + (k + 2) * s.period) :
    ∃ t : State, Sys2Proof.core.run (its.map fun x => iterationSteps x.1).sum s = .next t ∧ t.inbox = l ∧
      t.busy = false ∧ s.OnTime its.length t := by
  induction its generalizing s with
  | nil => exact ⟨s, rfl, hin, h.busy, rfl, by simp, rfl, rfl⟩
  | cons x its ih =>
    obtain ⟨hxnow, hxwake⟩ := htimes 0 (Nat.succ_pos _)
    have hpos := State.period_pos h.wf
    rw [List.getElem_cons_zero, Nat.cast_zero, zero_add, one_mul] at hxnow
    rw [List.getElem_cons_zero, Nat.cast_zero, zero_add] at hxwake
    rw [List.length_cons, Nat.mul_succ, Nat.add_comm] at hbus
    obtain ⟨t, sts, n, hrun, hn, hiter⟩ := run_iteration_supplied h hstarted hin hsnow hxnow
      ⟨hbus.whole, (Nat.le_add_right _ _).trans hbus.enough⟩
    have hperiod : t.period = s.period := congrArg Config.samplePeriod hiter.cfg
    have hdeadline : t.sched.deadline = s.sched.deadline + s.period := congrArg Sched.deadline hiter.sched
    obtain ⟨u, hu, hinu, hbusyu, htime⟩ := ih hiter.available (hiter.onTime.started.trans hstarted) hiter.inbox
      (hbus.drop hiter.bus hn)
      (by rw [hiter.now, hdeadline, hperiod]; exact max_lt (by linarith) (by linarith))
      fun k hk => by
        obtain ⟨hknow, hkwake⟩ := htimes (k + 1) (Nat.succ_lt_succ hk)
        rw [List.getElem_cons_succ] at hknow hkwake
        push_cast at hknow hkwake
        rw [hdeadline, hperiod]
        exact ⟨by linarith, by linarith⟩
    rw [List.map_cons, List.sum_cons]
    exact ⟨u, (core_run_then hrun _).trans hu, hinu, hbusyu, hiter.onTime.trans hiter.cfg htime⟩

/-- Settles O56, by induction on the iterations. -/
theorem deadlinesDoNotDrift : Obligations.DeadlinesDoNotDrift := by
  intro s its l hwf hbusy hidle hlock hrst hstarted hin hwhole henough hsnow htimes
  obtain ⟨t, hrun, hint, hbusyt, htime⟩ := run_iterations its ⟨hwf, hbusy, hidle, hlock, hrst⟩ hstarted hin
    ⟨hwhole, henough⟩ hsnow htimes
  exact ⟨t, hrun, hint, hbusyt, htime.started.trans hstarted, htime.deadline, htime.missed, htime.reports⟩

end Sys2Proof.Machine
end

section
/-! PROOFS. Errors in the first step of an operation (60_exceptions.md: R302, R305, R310, R311): READ_CH and SCAN_ALL
look at DRV_STATE before the operand, and what they refuse changes nothing else. -/

namespace Sys2Proof.Machine

open Sys2Proof

/-- An error taken in step 0 is the whole operation (R310, R311). -/
theorem State.Accepts.raises {s : State} (h : s.Accepts) {i : Instr} {op : SeqOp} (hop : seqOpOf i = some op)
    {st : Status} (hstep : ∀ u : State, u.drvState = s.drvState → op.step 0 u = noFrame (u.raise st)) :
    ∃ t, exec i s = .next t ∧ t.ownerView = s.ownerView.answered (hostWordOf i) 0 (Response.error st) [] := by
  obtain ⟨t, hexec, hview⟩ := h.exec_view hop
  have hanswer : op.Leads 1 (s.ownerView.within (hostWordOf i) 0 []) _ :=
    h.calm.answers (u := s.ownerView) (r := Response.error st) (hstep _ rfl)
  exact ⟨t, hexec, hview.trans hanswer.ends⟩

/-- Outside `Ready` step 0 refuses READ_CH of a legal channel and of any other. -/
theorem readChOp_step_notReady (ch : Byte) {s : State} (hdrv : s.drvState ≠ .ready) :
    (readChOp ch).step 0 s = noFrame (s.raise .notInitialized) := by
  unfold readChOp
  split
  · exact congrArg noFrame (if_neg hdrv)
  · exact congrArg noFrame (if_neg hdrv)

theorem readChOp_step_illegal {ch : Byte} (hch : 7 < ch.toNat) {s : State} (hdrv : s.drvState = .ready) :
    (readChOp ch).step 0 s = noFrame (s.raise .invalidArgument) := by
  simp only [readChOp, chan?_none hch]
  exact congrArg noFrame (if_pos hdrv)

theorem scanAllOp_step_notReady {s : State} (hdrv : s.drvState ≠ .ready) :
    scanAllOp.step 0 s = noFrame (s.raise .notInitialized) :=
  have hstart : noFrame (scanStart s) = noFrame (s.raise .notInitialized) := congrArg noFrame (if_neg hdrv)
  scanAllOp_step_both hstart hstart

/-- Settles O25: step 0 of a read looks at DRV_STATE, and then at the channel. -/
theorem readsAreRefusedInOrder : Obligations.ReadsAreRefusedInOrder := by
  intro s ch hport hidle hlock hrst
  have hacc : s.Accepts := ⟨hport, hidle, hlock, hrst⟩
  rw [← hostWordOf_readCh]
  refine ⟨fun hdrv => ⟨?_, ?_⟩, fun hdrv hch => ?_⟩
  · exact hacc.raises rfl fun u hu => readChOp_step_notReady ch (hu ▸ hdrv)
  · exact hacc.raises (i := .scanAll) rfl fun u hu => scanAllOp_step_notReady (hu ▸ hdrv)
  · exact hacc.raises rfl fun u hu => readChOp_step_illegal hch (hu.trans hdrv)

end Sys2Proof.Machine
end

section
/-! PROOFS. Time and the response on port P (60_exceptions.md: R314, R322): in no step does `now` go back, and a
response that a step presents is the last thing its operation did (R165). `State.Onward` says both of a part of a step;
every part of it is of that kind. -/

namespace Sys2Proof.Machine

open Sys2Proof

/-! ## No time lost, no response left open -/

/-- The operation of the response presented on port P, if one is, has ended with its status. -/
def State.AnswerStands (s : State) : Prop := ∀ r, s.pResp = some r → s.busy = false ∧ s.curStatus = r.status

/-- From `s` to `t` time has not gone back, and nothing but a later response follows one on port P. -/
structure State.Onward (s t : State) : Prop where
  now : s.now ≤ t.now
  answer : s.AnswerStands → t.AnswerStands

theorem State.AnswerStands.of_none {s : State} (h : s.pResp = none) : s.AnswerStands :=
  fun _ hr => nomatch h.symm.trans hr

namespace State.Onward

theorem same {s t : State} (now : s.now ≤ t.now := by exact le_rfl) (pResp : t.pResp = s.pResp := by rfl)
    (curStatus : t.curStatus = s.curStatus := by rfl) (busy : s.busy = false → t.busy = false := by exact id) :
    s.Onward t :=
  ⟨now, fun h r hr =>
    have ⟨hended, hstatus⟩ := h r (pResp.symm.trans hr)
    ⟨busy hended, curStatus.trans hstatus⟩⟩

/-- Where no response is presented any work may begin. -/
theorem unanswered {s t : State} (pResp : t.pResp = none) (now : s.now ≤ t.now := by exact le_rfl) : s.Onward t :=
  ⟨now, fun _ => .of_none pResp⟩

theorem refl (s : State) : s.Onward s := same

theorem trans {s t u : State} (h : s.Onward t) (h' : t.Onward u) : s.Onward u :=
  ⟨h.now.trans h'.now, fun hs => h'.answer (h.answer hs)⟩

theorem ite {s a b : State} {p : Prop} [Decidable p] (ha : s.Onward a) (hb : s.Onward b) :
    s.Onward (if p then a else b) := by
  split
  · exact ha
  · exact hb

end State.Onward

theorem State.respondP_onward (s : State) (r : Response) : s.Onward (s.respondP r) :=
  ⟨le_rfl, fun _ _ hr => ⟨rfl, congrArg Response.status (Option.some.inj hr)⟩⟩

/-! ## SEQ, FT and port C -/

theorem State.request_onward (s : State) (kind : ReqKind) (w : Width) (tx : TxWord) :
    s.Onward (s.request kind w tx).1 := by
  rcases s.request_cases kind w tx with ⟨b, _, h⟩ | ⟨a, b, rx, _, _, h⟩ | ⟨a, b, _, _, h⟩ <;> rw [h]
  · exact .same
  · exact .same
  · exact .same

theorem State.SeqWrites.onward {s t : State} (h : s.SeqWrites t) : s.Onward t := by
  induction h with
  | refl => exact .refl s
  | tail _ hw ih =>
    refine ih.trans ?_
    cases hw with
    | respond r => exact State.respondP_onward _ r
    | request kind w tx => exact State.request_onward _ kind w tx
    | _ => exact .same

theorem State.serveAll_onward (s : State) (cws : List HostWord) : s.Onward (s.serveAll cws) := by
  obtain ⟨r, evs, lock, _, _, h⟩ := State.serveAll_frame cws s
  exact h ▸ .same

theorem State.hwReset_onward (s : State) (k : Straps) : s.Onward (s.hwReset k) := .unanswered rfl

theorem State.shiftStep_onward (s : State) : s.Onward s.shiftStep := by
  rcases s.shiftStep_cases with h | ⟨_, _, _, _, _, h⟩ | ⟨_, _, _, h⟩ | ⟨_, h⟩ <;> rw [h]
  · rw [s.endShift_eq]; exact .same
  · exact .same
  · exact .same
  · exact .same

theorem State.finishFrame_onward (s : State) : s.Onward s.finishFrame := by
  have hsettle : s.Onward s.endSettle.1 := .same
  rcases s.finishFrame_cases with ⟨_, h⟩ | ⟨_, op, hop, h⟩ | ⟨_, _, h⟩ <;> rw [h]
  · exact hsettle.trans (.same (busy := fun _ => rfl))
  · obtain ⟨i, hi⟩ := State.currentOp_seqOpOf hop
    exact hsettle.trans ((seqOpOf_writes hi).reply _ _ _).onward
  · exact hsettle

/-- Neither the words of port C beside a part of a step nor a hardware reset in its stead make a difference. -/
theorem State.tick_onward {f : State → State} (hf : ∀ s : State, s.Onward (f s)) (s : State) : s.Onward (s.tick f) := by
  have hpop : ∀ l, s.Onward { s with slots := l } := fun _ => .same
  rcases s.tick_cases f with ⟨_, ht⟩ | ⟨l, _, ht⟩ | ⟨cws, l, _, ht⟩ | ⟨cws, l, _, ht⟩ | ⟨k, l, _, ht⟩ <;> rw [ht]
  · exact hf s
  · exact (hpop l).trans (hf _)
  · exact (hpop l).trans ((State.serveAll_onward _ cws).trans (hf _))
  · exact (hpop l).trans ((hf _).trans (State.serveAll_onward _ cws))
  · exact (hpop l).trans (State.hwReset_onward _ k)

theorem SeqOp.Writes.run_onward {op : SeqOp} (h : op.Writes) (n : Nat) (s : State) : s.Onward (op.run n s) :=
  op.run_keeps (P := s.Onward) (fun _ ht _ _ => ht.trans (State.tick_onward (fun u => (h.micro u).onward) _)) n s
    (.refl s)

theorem State.resume_onward {s t : State} (h : s.resume = .next t) : s.Onward t := by
  rcases s.resume_cases with ⟨_, _, op, hop, hr⟩ | ⟨_, _, _, hr⟩ | ⟨_, hr⟩ <;> cases hr.symm.trans h
  · obtain ⟨i, hi⟩ := State.currentOp_seqOpOf hop
    exact (seqOpOf_writes hi).run_onward _ s
  · exact .refl s

theorem State.proceed_onward {s t : State} (h : s.proceed = .next t) : s.Onward t := by
  unfold State.proceed at h
  split at h
  · cases h; exact s.tick_onward State.shiftStep_onward
  · rcases s.settleStep_cases with ⟨_, hs⟩ | ⟨_, _, hs⟩ | ⟨_, _, _, hs⟩ <;> rw [hs] at h
    · cases h; exact s.tick_onward fun _ => .same
    · exact (s.tick_onward State.finishFrame_onward).trans (State.resume_onward h)
    · cases h
  · exact State.resume_onward h

/-! ## Work that begins where no response is presented (R37) -/

section
variable {s t : State} (hnone : s.pResp = none)
include hnone

theorem State.acceptP_onward (cw : HostWord) : s.Onward (s.acceptP cw) := .unanswered hnone

theorem State.benchRequest_onward (kind : ReqKind) (w : Width) (tx : TxWord) :
    s.Onward (s.benchRequest kind w tx) := by
  unfold State.benchRequest
  rcases s.request_cases kind w tx with ⟨b, _, h⟩ | ⟨a, b, rx, _, _, h⟩ | ⟨a, b, _, _, h⟩ <;> rw [h]
  · exact .unanswered hnone
  · exact .unanswered hnone
  · exact .unanswered hnone

theorem exec_onward {i : Instr} (h : exec i s = .next t) : s.Onward t := by
  cases hop : seqOpOf i with
  | none =>
    cases (exec_bench s hop).symm.trans h
    cases benchFrame s.cfg i with
    | none => exact .same
    | some f => exact State.benchRequest_onward hnone _ _ _
  | some op =>
    cases hport : s.port with
    | P =>
      cases (exec_portP hop hport).symm.trans h
      exact (State.acceptP_onward hnone _).trans ((seqOpOf_writes hop).run_onward _ _)
    | C =>
      cases (exec_portC (Option.isSome_of_eq_some hop) hport).symm.trans h
      exact s.serveAll_onward [_]

theorem State.runWord_P_onward {cw : HostWord} (h : s.runWord .P cw = .next t) : s.Onward t := by
  unfold State.runWord at h
  split at h
  · have hport : s.Onward { s with port := .P } := .same
    exact hport.trans (exec_onward hnone h)
  · cases h
    exact (State.acceptP_onward hnone cw).trans (State.respondP_onward _ _)

theorem State.runRequest_onward {rq : RequestWord} (h : s.runRequest rq = .next t) : s.Onward t := by
  unfold State.runRequest at h
  split at h
  · exact exec_onward hnone h
  · cases h; exact .same

theorem State.runFrame_onward {w : Width} {tx : TxWord} (h : s.runFrame w tx = .next t) : s.Onward t := by
  unfold State.runFrame at h
  split at h
  · exact exec_onward hnone h
  · cases h; exact State.benchRequest_onward hnone _ _ _

end

theorem State.runWord_C_onward {s t : State} {cw : HostWord} (h : s.runWord .C cw = .next t) : s.Onward t := by
  obtain ⟨p, hp⟩ := s.runWord_C cw
  cases hp.symm.trans h
  have hport : s.Onward { s with port := p } := .same
  exact hport.trans (State.serveAll_onward _ [cw])

/-! ## The owner's moves and TMR (R282, R322) -/

theorem schedStart_onward (now : Time) (s : State) : s.Onward (schedStart now s) :=
  .ite (.same (s.readNow_le now)) (.refl s)

theorem iterateMove_onward (scan8 : Bool) (now wake : Time) (l : List Input) (s : State) :
    s.Onward (iterateMove scan8 now wake l s) := .ite .same .same

theorem schedReport_onward (s : State) : s.Onward (schedReport s) := .ite (.refl s) .same

/-- The sleep of step 4 begins at the time read in step 3. -/
theorem schedFinish_onward (now wake : Time) (s : State) : s.Onward (schedFinish now wake s) :=
  .ite (.ite (.same ((s.readNow_le now).trans (State.sleepUntil_le _ _ _).1)) (.same (s.readNow_le now))) (.refl s)

theorem State.sleepMicros_onward (s : State) (n : Nat) (wake : Time) : s.Onward (s.sleepMicros n wake) :=
  .same (s.sleepUntil_le _ _).1

theorem scriptMove_onward (fresh : Bool) (ws : List HostWord) (l : List Input) (s : State) :
    s.Onward (scriptMove fresh ws l s) := by
  unfold scriptMove
  refine .ite .same ?_
  split
  · exact .same
  · exact .same

/-! ## The step -/

theorem State.stepFree_onward {s t : State} (hnone : s.pResp = none) (h : s.stepFree = .next t) : s.Onward t := by
  have hpop : ∀ l, s.Onward { s with inbox := l } := fun _ => .same
  unfold State.stepFree at h
  cases hin : s.inbox with
  | nil => rw [hin] at h; cases h; exact .refl s
  | cons x l =>
    rw [hin] at h
    cases x with
    | portP cw => exact (hpop l).trans (State.runWord_P_onward hnone h)
    | portC cw => exact (hpop l).trans (State.runWord_C_onward h)
    | request rq => exact (hpop l).trans (State.runRequest_onward hnone h)
    | frame w tx => exact (hpop l).trans (State.runFrame_onward hnone h)
    | rst k => cases h; exact (hpop l).trans (State.hwReset_onward _ k)
    | startup ranges now => cases h; exact .same
    | schedStart now => cases h; exact (hpop l).trans (schedStart_onward now _)
    | iterate scan8 now wake => cases h; exact iterateMove_onward scan8 now wake l s
    | report => cases h; exact (hpop l).trans (schedReport_onward _)
    | finish now wake => cases h; exact (hpop l).trans (schedFinish_onward now wake _)
    | sleepMicros n wake => cases h; exact (hpop l).trans (State.sleepMicros_onward _ n wake)
    | script fresh ws => cases h; exact scriptMove_onward fresh ws l s

/-- The step withdraws the response of the step before (R37), and from there on goes onward. -/
theorem step_onward {s t : State} (h : step s = .next t) : s.clearOutputs.Onward t := by
  have hwf := wf_of_step_next h
  cases hbusy : s.busy with
  | false => exact State.stepFree_onward rfl ((step_idle hwf hbusy).symm.trans h)
  | true =>
    rcases step_busy_cases hwf hbusy with ⟨cw, l, p, _, ht⟩ | ⟨k, l, _, ht⟩ | ht
    · cases ht.symm.trans h
      have hpop : s.clearOutputs.Onward { s.clearOutputs with inbox := l, port := p } := .same
      exact hpop.trans (State.serveAll_onward _ [cw])
    · cases ht.symm.trans h
      exact .unanswered rfl
    · exact State.proceed_onward (ht.symm.trans h)

/-- A response that a step presents is its operation's last step (R165). -/
theorem step_answer {s t : State} {r : Response} (h : step s = .next t) (hr : t.pResp = some r) :
    t.busy = false ∧ t.curStatus = r.status :=
  (step_onward h).answer (.of_none rfl) r hr

/-! ## The obligations -/

/-- With nothing in progress the invariant leaves FT and the lock as R314 has them. -/
theorem State.Inv.quiet {s : State} (h : s.Inv) (hbusy : s.busy = false) :
    s.Quiet ∧ s.ft.err = false ∧ s.ft.settleCnt = 0 := by
  have hidle : s.ft.state = .idle := (h.resting hbusy).2.idle
  obtain ⟨_, herr, hcount⟩ := h.base.ft.idle hidle
  have hcs : s.ft.cs = .deasserted := by
    cases hc : s.ft.cs with
    | deasserted => rfl
    | asserted => cases hidle.symm.trans (h.base.ft.cs hc)
  exact ⟨⟨hbusy, hidle, hcs, h.base.lock⟩, herr, hcount⟩

/-- Settles O18: the response ends the operation, and the step keeps the invariant. -/
theorem quietAfterEveryResponse : Obligations.QuietAfterEveryResponse := by
  intro s t r hinv hstep hr
  obtain ⟨hbusy, hstatus⟩ := step_answer hstep hr
  obtain ⟨hquiet, herr, hcount⟩ := (stepKeepsTheInvariant s t hinv hstep).quiet hbusy
  exact ⟨hquiet, herr, hcount, hstatus⟩

theorem step_sleepMicros {s : State} {n : Nat} {wake : Time} {l : List Input} (hwf : s.cfg.wf = true)
    (hbusy : s.busy = false) (hin : s.inbox = .sleepMicros n wake :: l) :
    step s = .next ({ s.clearOutputs with inbox := l }.sleepMicros n wake) := by
  rw [step_idle hwf hbusy, State.stepFree, State.clearOutputs_inbox, hin]

theorem State.sleepMicros_wake_le (s : State) (n : Nat) (wake : Time) : wake ≤ (s.sleepMicros n wake).now :=
  (le_max_right _ _).trans (le_max_right _ _)

/-- Settles O54: every step goes onward, and a sleep reads a time after its end. -/
theorem timeNeverGoesBack : Obligations.TimeNeverGoesBack := by
  refine ⟨fun s t h => (step_onward h).now, fun s n wake l hwf hbusy hin => ?_⟩
  exact ⟨_, step_sleepMicros hwf hbusy hin, State.sleepMicros_le _ n wake, State.sleepMicros_wake_le _ n wake⟩

end Sys2Proof.Machine
end

section
/-! PROOFS. Hardware reset (70_reset_and_hazards.md: R340, R342): what it leaves, and that a tick whose slot holds it
takes it in the stead of its step, after which the operation runs no further. -/

namespace Sys2Proof.Machine

open Sys2Proof

/-! ## What hardware reset leaves -/

/-- Every register at its reset value; DEV, SCHED, TMR and the history as `u`, the state it is taken in, has them. -/
theorem State.hwReset_hwResetOf (u : State) (k : Straps) {s : State} (hist : u.hist = s.hist := by rfl)
    (dev : u.dev = s.dev := by rfl) (sched : u.sched = s.sched := by rfl) (now : u.now = s.now := by rfl)
    (cfg : u.cfg = s.cfg := by rfl) : s.HwResetOf (u.hwReset k) k where
  seq := ⟨rfl, rfl, fun _ => Vector.getElem_replicate _, rfl, rfl, rfl, rfl, rfl⟩
  ft := ⟨rfl, rfl, rfl, rfl, rfl⟩
  pins := ⟨congrArg (fun c : Config => !c.csActiveLevel) cfg, rfl⟩
  ports := ⟨rfl, rfl, rfl, rfl⟩
  straps := rfl
  kept := ⟨hist, dev, sched, now, cfg⟩

/-! ## Hardware reset in the stead of a step -/

theorem State.tick_rst {s : State} {k : Straps} {l : List Slot} (h : s.slots = .rst k :: l) (f : State → State) :
    s.tick f = { s with slots := l }.hwReset k := by
  unfold State.tick; rw [h]

/-- In the stead of a micro-step it ends the run. -/
theorem SeqOp.run_rst (op : SeqOp) {s : State} (hbusy : s.busy = true) (hidle : s.ft.state = .idle) {k : Straps}
    {l : List Slot} (h : s.slots = .rst k :: l) : op.run seqFuel s = { s with slots := l }.hwReset k := by
  rw [seqFuel, op.run_active 15 hbusy hidle, State.tick_rst h]
  exact op.run_stopped 15 (s := { s with slots := l }.hwReset k) fun hactive => Bool.false_ne_true hactive.1

theorem State.resume_free {s : State} (h : s.busy = false) : s.resume = .next s := if_neg (by simp [h])

/-- In the stead of the next step of FT, or of the micro-step SEQ goes on with. -/
theorem State.Inv.proceed_rst {s : State} (hinv : s.Inv) (hbusy : s.busy = true) {k : Straps} {l : List Slot}
    (h : s.slots = .rst k :: l) : s.proceed = .next ({ s with slots := l }.hwReset k) := by
  cases hst : s.ft.state with
  | shift => rw [State.proceed_shift hst, State.tick_rst h]
  | settle =>
    rw [State.proceed_settle hst]
    rcases s.settleStep_cases with ⟨_, hstep⟩ | ⟨_, _, hstep⟩ | ⟨_, hnb, hnone, _⟩
    · rw [hstep, State.tick_rst h]
    · rw [hstep, State.tick_rst h]
      exact State.resume_free rfl
    · exact absurd hnone (hinv.currentOp_ne_none hbusy hnb)
  | idle =>
    have hnb : s.bench = false := by
      by_contra hb
      obtain ⟨_, _, hactive, _⟩ := hinv.benched (Bool.eq_true_of_not_eq_false hb)
      exact hactive hst
    have hresume : s.proceed = s.resume := by unfold State.proceed; rw [hst]
    rcases s.resume_cases with ⟨_, _, op, _, hrun⟩ | ⟨_, _, hnone, _⟩ | ⟨hnot, _⟩
    · rw [hresume, hrun, op.run_rst hbusy hst h]
    · exact absurd hnone (hinv.currentOp_ne_none hbusy hnb)
    · exact absurd ⟨hbusy, hnb⟩ hnot

/-! ## Between two steps -/

theorem step_rst {s : State} (hwf : s.cfg.wf = true) {k : Straps} {l : List Input} (hin : s.inbox = .rst k :: l) :
    step s = .next ({ s.clearOutputs with inbox := l }.hwReset k) := by
  rw [step_legal hwf]
  split
  · rw [State.stepBusy, State.clearOutputs_inbox, hin]
  · rw [State.stepFree, State.clearOutputs_inbox, hin]

/-! ## The statement -/

/-- An instruction that is encoded as a host word is an operation of SEQ, and the word its own. -/
theorem seqOpOf_of_encode_host {c : Config} {i : Instr} {cw : HostWord} (h : encode c i = .host cw) :
    ∃ op, seqOpOf i = some op ∧ hostWordOf i = cw := by
  have hsome : (seqOpOf i).isSome = true := by
    cases i with
    | reset | powerOnAll | setRange | getRange | enterScan | readCh | scanAll | getCodes | toVoltage => rfl
    | _ => cases h
  obtain ⟨op, hop⟩ := Option.isSome_iff_exists.mp hsome
  cases (encode_of_host c hsome).1.symm.trans h
  exact ⟨op, hop, rfl⟩

/-- Settles O17: hardware reset is the next input, or the slot of the next step, or that of the first micro-step. -/
theorem hardwareResetLeavesTheResetValues : Obligations.HardwareResetLeavesTheResetValues := by
  refine ⟨fun s k l hwf hin => ?_, fun s k l hinv hwf hbusy hin hslots => ?_,
    fun s i cw k l henc hport hidle hslots => ?_⟩
  · exact ⟨_, step_rst hwf hin, State.hwReset_hwResetOf _ k, rfl⟩
  · have hstep : step s = .next ({ s.clearOutputs with slots := l }.hwReset k) := by
      rw [step_eq_proceed hwf hbusy (by simp [hin])]
      exact State.Inv.proceed_rst (s := s.clearOutputs) hinv hbusy hslots
    exact ⟨_, hstep, State.hwReset_hwResetOf _ k, rfl⟩
  · obtain ⟨op, hop, rfl⟩ := seqOpOf_of_encode_host henc
    refine ⟨_, ?_, State.hwReset_hwResetOf { s.acceptP (hostWordOf i) with slots := l } k, rfl⟩
    rw [exec_portP hop hport, op.run_rst (s := s.acceptP (hostWordOf i)) rfl hidle hslots]

end Sys2Proof.Machine
end

section
/-! PROOFS. The words of the startup (41_driver_init.md, R116, R345): the frames each of them sends, what it sets up of
SEQ, and how it is answered where BUS completes its frames and where it faults one of them. -/

namespace Sys2Proof.Machine

open Sys2Proof

/-! ## Frames of which one faults -/

/-- Of the frames sent to DEV, the answers complete some and refuse or fault the next; the events of these frames, and
the answers left after them. -/
inductive FaultsAt (c : Config) : Dev → List FrameReq → List BusAnswer → List Event → List BusAnswer → Prop
  | here {d : Dev} {f : FrameReq} {fs : List FrameReq} (a : BusAnswer) {b : List BusAnswer}
      (fault : a.isFault = true) : FaultsAt c d (f :: fs) (a :: b) [a.faultEvent f.1 f.2] b
  | later {d : Dev} {f : FrameReq} {fs : List FrameReq} (a : BusAnswer) {bs b : List BusAnswer} (rx : BitVec 32)
      {evs : List Event} (word : a.word d f.1 = some rx) (rest : FaultsAt c (d.receive c f.1 f.2) fs bs evs b) :
      FaultsAt c d (f :: fs) (a :: bs) (.frame f.1 f.2 (.rxOk (f.1.trunc rx)) :: evs) b

section
variable {c : Config} {d d' : Dev} {fs gs : List FrameReq} {bs b : List BusAnswer} {rs : List (BitVec 32)}

theorem faultsAt_of_exchange {m : Nat} {f : FrameReq} {a : BusAnswer} (hf : fs[m]? = some f) (ha : a.isFault = true)
    (hex : exchange c d (fs.take m) bs = some (rs, d', a :: b)) :
    FaultsAt c d fs bs (frameEvents (fs.take m) rs ++ [a.faultEvent f.1 f.2]) b := by
  induction fs generalizing d bs rs m with
  | nil => cases hf
  | cons g fs ih =>
    cases m with
    | zero =>
      cases hf
      cases hex
      exact .here a ha
    | succ m =>
      obtain ⟨_, _, _, _, rfl, hrx, hrest, rfl⟩ := exchange_cons hex
      exact .later _ _ hrx (ih hf hrest)

theorem exchange_append (h : exchange c d (fs ++ gs) bs = some (rs, d', b)) :
    ∃ rs₁ d₁ b₁ rs₂, exchange c d fs bs = some (rs₁, d₁, b₁) ∧ exchange c d₁ gs b₁ = some (rs₂, d', b) ∧
      frameEvents (fs ++ gs) rs = frameEvents fs rs₁ ++ frameEvents gs rs₂ := by
  induction fs generalizing d bs rs with
  | nil => exact ⟨[], d, bs, rs, rfl, h, rfl⟩
  | cons f fs ih =>
    obtain ⟨a, bs, rx, rs, rfl, hrx, hrest, rfl⟩ := exchange_cons h
    obtain ⟨rs₁, d₁, b₁, rs₂, hfs, hgs, hevs⟩ := ih hrest
    exact ⟨rx :: rs₁, d₁, b₁, rs₂, exchange_cons_of_word hrx hfs, hgs, congrArg (_ :: ·) hevs⟩

/-- The fault is met in the first of two lists of frames, or after all of its frames in the second. -/
theorem FaultsAt.of_append {evs : List Event} (h : FaultsAt c d (fs ++ gs) bs evs b) :
    FaultsAt c d fs bs evs b ∨ ∃ rs d₁ b₁ evs₂, exchange c d fs bs = some (rs, d₁, b₁) ∧
      FaultsAt c d₁ gs b₁ evs₂ b ∧ evs = frameEvents fs rs ++ evs₂ := by
  induction fs generalizing d bs evs with
  | nil => exact .inr ⟨[], d, bs, evs, rfl, h, rfl⟩
  | cons f fs ih =>
    cases h with
    | here a fault => exact .inl (.here a fault)
    | later a rx word rest =>
      rcases ih rest with hfs | ⟨rs, d₁, b₁, evs₂, hfs, hgs, rfl⟩
      · exact .inl (.later a rx word hfs)
      · exact .inr ⟨rx :: rs, d₁, b₁, evs₂, exchange_cons_of_word word hfs, hgs, rfl⟩

end

theorem BusAnswer.faultEvent_filter (a : BusAnswer) (w : Width) (tx : TxWord) :
    [a.faultEvent w tx].filter Event.isFrame = [a.faultEvent w tx] :=
  List.filter_cons_of_pos (by cases a <;> rfl)

theorem frameEvents_cmdReq (cmd : BitVec 16) (fs : List FrameReq) (rx : BitVec 32) (rxs : List (BitVec 32)) :
    frameEvents (cmdReq cmd :: fs) (rx :: rxs) = .frame .w32 (cmdFrame cmd) (.rxOk rx) :: frameEvents fs rxs :=
  congrArg (fun x => Event.frame .w32 (cmdFrame cmd) (.rxOk x) :: _) (Width.trunc_w32 rx)

/-! ## What a word of the startup leaves -/

/-- The registers of SEQ that the startup sets up. -/
structure Setup where
  drvState : DrvState
  range : Vector Byte 8
  valid : BitVec 8
  autoArmed : Bool

def State.setup (s : State) : Setup := ⟨s.drvState, s.range, s.valid, s.autoArmed⟩

/-- Since `s`, frames with the events `evs` have been sent, and `b` are the answers left; the next word may come. -/
structure State.Sent (s : State) (evs : List Event) (b : List BusAnswer) (t : State) : Prop where
  available : t.Available
  cfg : t.cfg = s.cfg
  straps : t.straps = s.straps
  sched : t.sched = s.sched
  now : t.now = s.now
  frames : t.hist.filter Event.isFrame = s.hist.filter Event.isFrame ++ evs
  bus : t.busIn = b

theorem State.Sent.trans {s t u : State} {evs evs' : List Event} {b b' : List BusAnswer} (h : s.Sent evs b t)
    (h' : t.Sent evs' b' u) : s.Sent (evs ++ evs') b' u where
  available := h'.available
  cfg := h'.cfg.trans h.cfg
  straps := h'.straps.trans h.straps
  sched := h'.sched.trans h.sched
  now := h'.now.trans h.now
  frames := by rw [h'.frames, h.frames, List.append_assoc]
  bus := h'.bus

/-- A move of the owner sends nothing. -/
theorem State.Available.moves {s : State} (h : s.Available) (l : List Input) :
    s.Sent [] s.busIn { s.clearOutputs with inbox := l } :=
  ⟨⟨h.wf, h.busy, h.idle, h.lock, h.noRst⟩, rfl, rfl, rfl, rfl, (List.append_nil _).symm, rfl⟩

/-- `s` has been answered with `st`, having sent frames with the events `evs`. -/
structure State.Replied (s : State) (st : Status) (evs : List Event) (b : List BusAnswer) (t : State) : Prop
    extends s.Sent evs b t where
  inbox : t.inbox = s.inbox
  status : t.curStatus = st

/-- What no word of the startup writes, but for its events and its answer. -/
structure State.SetupKeeps (s u : State) : Prop where
  cfg : u.cfg = s.cfg := by rfl
  straps : u.straps = s.straps := by rfl
  sched : u.sched = s.sched := by rfl
  now : u.now = s.now := by rfl
  inbox : u.inbox = s.inbox := by rfl
  lock : u.bufLock = s.bufLock := by rfl
  hist : u.hist = s.ownerView.hist := by rfl

/-- The owner sees every event of the bus. -/
theorem State.ownerView_frames (s : State) : s.ownerView.hist.filter Event.isFrame = s.hist.filter Event.isFrame := by
  have hsees : ∀ e : Event, (e.isFrame && e.ownerSees) = e.isFrame := fun e => by cases e <;> rfl
  simp only [State.ownerView, List.filter_filter, hsees]

/-- A word runs to the answer that the owner sees. -/
theorem State.Accepts.replied {s t u : State} (h : s.Accepts) (hwf : s.cfg.wf = true) {i : Instr}
    (hexec : exec i s = .next t) {cw : HostWord} {k : Nat} {r : Response} {evs frames : List Event}
    (hview : t.ownerView = u.answered cw k r evs) (hidle : u.ft.state = .idle)
    (hframes : evs.filter Event.isFrame = frames) (hkept : s.SetupKeeps u := by exact {}) :
    s.Replied r.status frames u.busIn t ∧ t.dev = u.dev ∧ t.setup = u.setup := by
  have seen : ∀ {α : Type} (f : State → α), f t.ownerView = f (u.answered cw k r evs) := fun f => congrArg f hview
  have hhist : t.ownerView.hist = s.ownerView.hist ++ .op .P cw :: (evs ++ [.resp .P r]) := by
    rw [seen State.hist, ← hkept.hist]
    rfl
  have havailable : t.Available := {
    wf := ((seen State.cfg).trans hkept.cfg) ▸ hwf
    busy := seen State.busy
    idle := (seen fun x => x.ft.state).trans hidle
    lock := (seen State.bufLock).trans (hkept.lock.trans h.lock)
    noRst := (exec_accepts h.port h.noRst hexec).2 }
  have hsent : t.hist.filter Event.isFrame = s.hist.filter Event.isFrame ++ frames := by
    rw [← t.ownerView_frames, hhist, ← hframes, ← s.ownerView_frames]
    simp [Event.isFrame]
  exact ⟨{
      available := havailable
      cfg := (seen State.cfg).trans hkept.cfg
      straps := (seen State.straps).trans hkept.straps
      sched := (seen State.sched).trans hkept.sched
      now := (seen State.now).trans hkept.now
      frames := hsent
      bus := seen State.busIn
      inbox := (seen State.inbox).trans hkept.inbox
      status := seen State.curStatus },
    seen State.dev, seen State.setup⟩

/-- A word whose fault leaves the block `Uninitialized` (R163, R312). -/
theorem State.Accepts.unconfigured {s t u : State} (h : s.Accepts) (hwf : s.cfg.wf = true) {i : Instr}
    (hexec : exec i s = .next t) {cw : HostWord} {k : Nat} {evs frames : List Event}
    (hview : t.ownerView = u.unconfigured.answered cw k (Response.error .busFault) evs) (hidle : u.ft.state = .idle)
    (hframes : evs.filter Event.isFrame = frames) (hkept : s.SetupKeeps u.unconfigured := by exact {}) :
    s.Replied .busFault frames u.busIn t ∧ t.drvState = .uninitialized := by
  obtain ⟨hreplied, _, hsetup⟩ := h.replied hwf hexec hview hidle hframes hkept
  exact ⟨hreplied, congrArg Setup.drvState hsetup⟩

/-- An operation whose first frame writes a register, and faults. -/
theorem State.Accepts.registerFaults {s t : State} (h : s.Accepts) (hwf : s.cfg.wf = true) {i : Instr} {op : SeqOp}
    {x : BitVec 7} {y : Byte} {cw : HostWord} (hexec : exec i s = .next t)
    (hview : t.ownerView = op.run seqFuel (s.ownerView.acceptP cw)) (hop : op.WritesRegister x y cw s.ownerView)
    {a : BusAnswer} {b : List BusAnswer} (hbus : s.busIn = a :: b) (ha : a.isFault = true) :
    s.Replied .busFault [a.faultEvent .w24 (regFrame x y)] b t ∧ t.drvState = .uninitialized :=
  h.unconfigured hwf hexec (hview.trans (hop.faults hbus ha)) (a.ftAfterFault_idle h.idle _ _ _)
    (a.faultEvent_filter .w24 _)

/-! ## The words of the startup (R116, R345) -/

/-- A word of the startup; the range of a SET_RANGE is legal. -/
inductive InitWord where
  | reset
  | setRange (c : Chan) (rg : Byte) (legal : rg.toNat ≤ 6)
  | powerOnAll
  | enterScan

namespace InitWord

def instr : InitWord → Instr
  | .reset => .reset
  | .setRange c rg _ => .setRange (BitVec.ofNat 8 c.val) rg
  | .powerOnAll => .powerOnAll
  | .enterScan => .enterScan

/-- The frames the word sends (R166, R171, R175, R184). -/
def frames (c : Config) (k : Strategy) : InitWord → List FrameReq
  | .reset => resetFrames c
  | .setRange n rg _ => [regReq (c.rangeReg n) rg]
  | .powerOnAll => [regReq c.regChPwrDn 0]
  | .enterScan => match k with
    | .manual => []
    | .autoSeq => enterScanFrames c

/-- What the word sets up where its frames are completed. -/
def sets (k : Strategy) (g : Setup) : InitWord → Setup
  | .reset => ⟨.configuring, Vector.replicate 8 0, 0, false⟩
  | .setRange c rg _ => { g with range := g.range.set c rg, autoArmed := false }
  | .powerOnAll => { g with autoArmed := false }
  | .enterScan => match k with
    | .manual => { g with drvState := .ready }
    | .autoSeq => { g with drvState := .ready, autoArmed := true }

/-- The driver states in which the word does what it is for (R184). -/
def Admitted (x : InitWord) (drv : DrvState) : Prop := x = .reset ∨ drv ≠ .uninitialized

theorem Admitted.sets {x : InitWord} {g : Setup} (h : x.Admitted g.drvState) (k : Strategy) :
    (x.sets k g).drvState ≠ .uninitialized := by
  cases x with
  | reset => exact nofun
  | enterScan => cases k <;> exact nofun
  | _ => exact h.resolve_left nofun

theorem instr_isSome (x : InitWord) : (seqOpOf x.instr).isSome = true := by cases x <;> rfl

theorem seqOpOf_setRange (c : Chan) {rg : Byte} (legal : rg.toNat ≤ 6) :
    seqOpOf (.setRange (BitVec.ofNat 8 c.val) rg) = some (setRangeLegalOp c rg) :=
  congrArg some (setRangeOp_legal (scan8_channel c) legal)

section
variable {s : State} (h : s.Accepts) (hwf : s.cfg.wf = true)
include h hwf

/-- The word is answered `Ok` where BUS completes its frames. -/
theorem completes (x : InitWord) (hadm : x.Admitted s.drvState) {rs : List (BitVec 32)} {d : Dev}
    {b : List BusAnswer} (hex : exchange s.cfg s.dev (x.frames s.cfg s.straps.strategy) s.busIn = some (rs, d, b)) :
    ∃ t, exec x.instr s = .next t ∧ s.Replied .ok (frameEvents (x.frames s.cfg s.straps.strategy) rs) b t ∧
      t.dev = d ∧ t.setup = x.sets s.straps.strategy s.setup := by
  cases x with
  | reset =>
    obtain ⟨rx₁, rx₂, rfl⟩ := List.length_eq_two.mp (exchange_length hex)
    obtain ⟨a₁, a₂, hbus, hrx₁, hrx₂, rfl⟩ := exchange_pair hex
    obtain ⟨t, hexec, hview⟩ := h.exec_view (i := .reset) rfl
    have hrun := hview.trans (resetOp_completes h.calm h.lock _ hbus hrx₁ hrx₂)
    exact ⟨t, hexec, h.replied hwf hexec hrun rfl
      (frameEvents_cmdReq s.cfg.opcRst [regReq s.cfg.regChPwrDn 0] rx₁ [rx₂]).symm⟩
  | setRange c rg legal =>
    obtain ⟨a, bs, rx, _, hbus, hrx, hrest, rfl⟩ := exchange_cons hex
    cases hrest
    obtain ⟨t, hexec, hview⟩ := h.exec_view (seqOpOf_setRange c legal)
    have hrun := hview.trans (setRangeLegalOp_completes h.calm _ c rg hbus hrx)
    exact ⟨t, hexec, h.replied hwf hexec hrun rfl rfl⟩
  | powerOnAll =>
    obtain ⟨a, bs, rx, _, hbus, hrx, hrest, rfl⟩ := exchange_cons hex
    cases hrest
    obtain ⟨t, hexec, hview⟩ := h.exec_view (i := .powerOnAll) rfl
    have hrun := hview.trans (powerOnAllOp_completes h.calm _ hbus hrx)
    exact ⟨t, hexec, h.replied hwf hexec hrun rfl rfl⟩
  | enterScan =>
    have hdrv : s.drvState ≠ .uninitialized := hadm.resolve_left nofun
    obtain ⟨t, hexec, hview⟩ := h.exec_view (i := .enterScan) rfl
    cases hk : s.straps.strategy with
    | manual =>
      rw [hk] at hex
      obtain ⟨rfl, rfl, rfl⟩ : [] = rs ∧ s.dev = d ∧ s.busIn = b := by simpa [InitWord.frames, exchange] using hex
      have hrun := hview.trans (enterScanOp_manual h.calm _ hdrv hk)
      exact ⟨t, hexec, h.replied hwf hexec hrun h.idle rfl⟩
    | autoSeq =>
      rw [hk] at hex
      obtain ⟨rx₁, rx₂, rfl⟩ := List.length_eq_two.mp (exchange_length hex)
      obtain ⟨a₁, a₂, hbus, hrx₁, hrx₂, rfl⟩ := exchange_pair hex
      have hrun := hview.trans (enterScanOp_completes h.calm _ hdrv hk hbus hrx₁ hrx₂)
      exact ⟨t, hexec, h.replied hwf hexec hrun rfl
        (congrArg (_ :: ·) (frameEvents_cmdReq s.cfg.opcAutoRst [] rx₂ []).symm)⟩

/-- The word is answered `BusFault` where one of its frames faults, and leaves the block `Uninitialized` (R163). -/
theorem faults (x : InitWord) (hadm : x.Admitted s.drvState) {evs : List Event} {b : List BusAnswer}
    (hfault : FaultsAt s.cfg s.dev (x.frames s.cfg s.straps.strategy) s.busIn evs b) :
    ∃ t, exec x.instr s = .next t ∧ s.Replied .busFault evs b t ∧ t.drvState = .uninitialized := by
  cases x with
  | reset =>
    obtain ⟨t, hexec, hview⟩ := h.exec_view (i := .reset) rfl
    generalize hbus : s.busIn = bs at hfault
    cases hfault with
    | here a ha =>
      have hrun := hview.trans (resetOp_firstFaults h.calm h.lock _ hbus ha)
      exact ⟨t, hexec, h.unconfigured hwf hexec hrun (h.calm.resetBegun.faulted _ _ _ _ _).idle
        (a.faultEvent_filter .w32 (cmdFrame s.cfg.opcRst))⟩
    | later a₁ rx₁ hrx₁ hrest =>
      cases hrest with
      | here a ha =>
        have hrun := hview.trans (resetOp_secondFaults h.calm h.lock _ hbus hrx₁ ha)
        exact ⟨t, hexec, h.unconfigured hwf hexec hrun ((h.calm.resetSent _ _).faulted _ _ _ _ _).idle
          (by
            rw [← Width.trunc_w32 rx₁]
            exact congrArg (_ :: ·) (a.faultEvent_filter .w24 (regFrame s.cfg.regChPwrDn 0)))⟩
      | later _ _ _ hrest => cases hrest
  | setRange c rg legal =>
    obtain ⟨t, hexec, hview⟩ := h.exec_view (seqOpOf_setRange c legal)
    generalize hbus : s.busIn = bs at hfault
    cases hfault with
    | here a ha =>
      exact ⟨t, hexec, h.registerFaults hwf hexec hview (setRangeLegalOp_writesRegister h.calm _ c rg) hbus ha⟩
    | later _ _ _ hrest => cases hrest
  | powerOnAll =>
    obtain ⟨t, hexec, hview⟩ := h.exec_view (i := .powerOnAll) rfl
    generalize hbus : s.busIn = bs at hfault
    cases hfault with
    | here a ha => exact ⟨t, hexec, h.registerFaults hwf hexec hview (powerOnAllOp_writesRegister h.calm _) hbus ha⟩
    | later _ _ _ hrest => cases hrest
  | enterScan =>
    have hdrv : s.drvState ≠ .uninitialized := hadm.resolve_left nofun
    obtain ⟨t, hexec, hview⟩ := h.exec_view (i := .enterScan) rfl
    generalize hbus : s.busIn = bs at hfault
    cases hk : s.straps.strategy with
    | manual =>
      rw [hk] at hfault
      cases hfault
    | autoSeq =>
      rw [hk] at hfault
      cases hfault with
      | here a ha =>
        exact ⟨t, hexec, h.registerFaults hwf hexec hview (enterScanOp_writesRegister h.calm _ hdrv hk) hbus ha⟩
      | later a₁ rx₁ hrx₁ hrest =>
        cases hrest with
        | here a ha =>
          have hrun := hview.trans (enterScanOp_secondFaults h.calm _ hdrv hk hbus hrx₁ ha)
          exact ⟨t, hexec, h.unconfigured hwf hexec hrun (a.ftAfterFault_idle rfl _ _ _)
            (congrArg (_ :: ·) (a.faultEvent_filter .w32 (cmdFrame s.cfg.opcAutoRst)))⟩
        | later _ _ _ hrest => cases hrest

end

end InitWord

end Sys2Proof.Machine
end

section
/-! PROOFS. The startup (70_reset_and_hazards.md R345; R116, R281): INIT as a script of the owner, up to its end or to
the first response that is not `Ok`, and SCHED's start after it. -/

namespace Sys2Proof.Machine

open Sys2Proof

/-! ## The moves of a script (R116) -/

section
variable {s : State} (h : s.Available) {fresh : Bool} {ws : List HostWord} {l : List Input}
include h

theorem step_script (hin : s.inbox = .script fresh ws :: l) :
    step s = .next (scriptMove fresh ws l s.clearOutputs) := by
  rw [step_idle h.wf h.busy, State.stepFree, State.clearOutputs_inbox, hin]

theorem step_startup {ranges : Vector Byte 8} {now : Time} (hin : s.inbox = .startup ranges now :: l) :
    step s = .next { s.clearOutputs with inbox := initInput ranges :: .schedStart now :: l } := by
  rw [step_idle h.wf h.busy, State.stepFree, State.clearOutputs_inbox, hin]
  rfl

/-- The script stops at a response that is not `Ok`, and reports it. -/
theorem step_script_reports (hin : s.inbox = .script false ws :: l) (hst : s.curStatus ≠ .ok) :
    step s = .next { s.clearOutputs with
      inbox := l, sched := { s.sched with reports := s.sched.reports ++ [.initFailed s.curStatus] } } :=
  (step_script h hin).trans (congrArg _ (if_pos ⟨rfl, hst⟩))

variable (hok : fresh = true ∨ s.curStatus = .ok)
include hok

omit h in
/-- The script has not come to a response at which it stops. -/
theorem script_goesOn : ¬(fresh = false ∧ s.curStatus ≠ .ok) := by
  rintro ⟨rfl, hst⟩
  exact hok.elim nofun hst

/-- A script with no word left ends. -/
theorem step_script_ends (hin : s.inbox = .script fresh [] :: l) :
    step s = .next { s.clearOutputs with inbox := l } := by
  rw [step_script h hin, scriptMove, if_neg (script_goesOn (s := s.clearOutputs) hok)]

/-- The script places its next word, which runs in the step after. -/
theorem run_scriptWord {i : Instr} (hi : (seqOpOf i).isSome = true)
    (hin : s.inbox = .script fresh (hostWordOf i :: ws) :: l) {t : State}
    (hexec : exec i (s.presented (.script false ws :: l)) = .next t) : Sys2Proof.core.run 2 s = .next t := by
  let u : State := { s.clearOutputs with inbox := .portP (hostWordOf i) :: .script false ws :: l }
  have hmove : step s = .next u := by
    rw [step_script h hin, scriptMove, if_neg (script_goesOn (s := s.clearOutputs) hok)]
  have hword : step u = .next t := by
    rw [step_eq_runWord_P (s := u) h.wf h.busy rfl, State.runWord_ok (decodeHost_hostWordOf hi)]
    exact hexec
  exact (core_run_succ hmove 1).trans (core_run_succ hword 0)

end

/-- What is sent from a word on, is sent from before it was presented. -/
theorem State.Sent.of_presented {s t : State} {l : List Input} {evs : List Event} {b : List BusAnswer}
    (h : (s.presented l).Sent evs b t) : s.Sent evs b t :=
  ⟨h.available, h.cfg, h.straps, h.sched, h.now, h.frames, h.bus⟩

/-! ## A script of words of the startup -/

section
variable {s : State} (h : s.Available) {fresh : Bool} (hok : fresh = true ∨ s.curStatus = .ok) {x : InitWord}
variable {ws : List HostWord} {l : List Input} (hin : s.inbox = .script fresh (hostWordOf x.instr :: ws) :: l)
variable (hadm : x.Admitted s.drvState) {b : List BusAnswer}
include h hok hin hadm

/-- After a word whose frames BUS completes the script may go on. -/
theorem run_initWord_completes {rs : List (BitVec 32)} {d : Dev}
    (hex : exchange s.cfg s.dev (x.frames s.cfg s.straps.strategy) s.busIn = some (rs, d, b)) :
    ∃ t : State, Sys2Proof.core.run 2 s = .next t ∧ t.inbox = .script false ws :: l ∧ t.curStatus = .ok ∧
      t.drvState ≠ .uninitialized ∧ t.dev = d ∧ t.setup = x.sets s.straps.strategy s.setup ∧
      s.Sent (frameEvents (x.frames s.cfg s.straps.strategy) rs) b t := by
  obtain ⟨t, hexec, ht, hdev, hsetup⟩ := InitWord.completes (h.accepts (.script false ws :: l)) h.wf x hadm hex
  have hdrv : t.drvState = (x.sets s.straps.strategy s.setup).drvState := congrArg Setup.drvState hsetup
  exact ⟨t, run_scriptWord h hok x.instr_isSome hin hexec, ht.inbox, ht.status,
    hdrv ▸ InitWord.Admitted.sets (g := s.setup) hadm _, hdev, hsetup, ht.toSent.of_presented⟩

/-- After a word one of whose frames faults the script stands at its response. -/
theorem run_initWord_faults {evs : List Event}
    (hfault : FaultsAt s.cfg s.dev (x.frames s.cfg s.straps.strategy) s.busIn evs b) :
    ∃ t : State, Sys2Proof.core.run 2 s = .next t ∧ t.inbox = .script false ws :: l ∧ t.curStatus = .busFault ∧
      t.drvState = .uninitialized ∧ s.Sent evs b t := by
  obtain ⟨t, hexec, ht, hdrv⟩ := InitWord.faults (h.accepts (.script false ws :: l)) h.wf x hadm hfault
  exact ⟨t, run_scriptWord h hok x.instr_isSome hin hexec, ht.inbox, ht.status, hdrv, ht.toSent.of_presented⟩

end

/-- The words of a script as the owner issues them. -/
def initScript (xs : List InitWord) : List HostWord := xs.map fun x => hostWordOf x.instr

section
variable {c : Config} {k : Strategy} {b : List BusAnswer} (xs : List InitWord) {s : State} (h : s.Available)
variable (hcfg : s.cfg = c) (hk : s.straps.strategy = k) {fresh : Bool} {l : List Input}
variable (hin : s.inbox = .script fresh (initScript xs) :: l) (hok : fresh = true ∨ s.curStatus = .ok)
variable (hadm : ∀ x, xs.head? = some x → x.Admitted s.drvState)
include h hcfg hk hin hok hadm

/-- Where BUS completes all its frames, the script sets up what its words do, one after the other. -/
theorem run_script_completes {rs : List (BitVec 32)} {d : Dev}
    (hex : exchange c s.dev (xs.flatMap (InitWord.frames c k)) s.busIn = some (rs, d, b)) :
    ∃ t : State, Sys2Proof.core.run (2 * xs.length + 1) s = .next t ∧ t.inbox = l ∧ t.dev = d ∧
      t.setup = xs.foldl (InitWord.sets k) s.setup ∧
      s.Sent (frameEvents (xs.flatMap (InitWord.frames c k)) rs) b t := by
  induction xs generalizing s fresh rs with
  | nil =>
    cases hex
    exact ⟨_, core_run_succ (step_script_ends h hok hin) 0, rfl, rfl, rfl, h.moves l⟩
  | cons x xs ih =>
    subst hcfg hk
    rw [List.flatMap_cons] at hex ⊢
    obtain ⟨rs₁, d₁, b₁, rs₂, hfirst, hrest, hevs⟩ := exchange_append hex
    obtain ⟨t, hrun, hint, hst, hdrv, hdev, hsetup, ht⟩ := run_initWord_completes h hok hin (hadm x rfl) hfirst
    obtain ⟨u, hu, hinu, hdevu, hsetupu, hsent⟩ := ih ht.available ht.cfg (congrArg Straps.strategy ht.straps) hint
      (.inr hst) (fun _ _ => .inr hdrv) (by rw [hdev, ht.bus]; exact hrest)
    have hsteps : 2 * (x :: xs).length + 1 = 2 + (2 * xs.length + 1) := by rw [List.length_cons]; omega
    rw [hsteps, hevs, List.foldl_cons, ← hsetup]
    exact ⟨u, (core_run_then hrun _).trans hu, hinu, hdevu, hsetupu, ht.trans hsent⟩

/-- Where a frame faults, the script stands after the word that sent it, which is answered `BusFault`. -/
theorem run_script_faults {evs : List Event}
    (hfault : FaultsAt c s.dev (xs.flatMap (InitWord.frames c k)) s.busIn evs b) :
    ∃ (n : Nat) (t : State) (ws : List HostWord), n ≤ 2 * xs.length ∧ Sys2Proof.core.run n s = .next t ∧
      t.inbox = .script false ws :: l ∧ t.curStatus = .busFault ∧ t.drvState = .uninitialized ∧ s.Sent evs b t := by
  induction xs generalizing s fresh evs with
  | nil => cases hfault
  | cons x xs ih =>
    subst hcfg hk
    rw [List.flatMap_cons] at hfault
    rw [List.length_cons, Nat.mul_succ]
    rcases hfault.of_append with hfirst | ⟨rs, d₁, b₁, evs₂, hfirst, hrest, rfl⟩
    · obtain ⟨t, hrun, ht⟩ := run_initWord_faults h hok hin (hadm x rfl) hfirst
      exact ⟨2, t, _, Nat.le_add_left 2 _, hrun, ht⟩
    · obtain ⟨t, hrun, hint, hst, hdrv, hdev, _, ht⟩ := run_initWord_completes h hok hin (hadm x rfl) hfirst
      obtain ⟨n, u, ws, hn, hu, hinu, hstu, hdrvu, hsent⟩ := ih ht.available ht.cfg
        (congrArg Straps.strategy ht.straps) hint (.inr hst) (fun _ _ => .inr hdrv) (by rw [hdev, ht.bus]; exact hrest)
      exact ⟨2 + n, u, ws, by omega, (core_run_then hrun n).trans hu, hinu, hstu, hdrvu, ht.trans hsent⟩

end

/-! ## INIT (R116, R345) -/

section
variable (ranges : Vector Byte 8) (legal : ∀ c : Chan, ranges[c].toNat ≤ 6)

/-- The words of INIT. -/
def startupWords : List InitWord :=
  .reset :: (channels.map fun c => .setRange c ranges[c] (legal c)) ++ [.powerOnAll, .enterScan]

theorem startupWords_script : initScript (startupWords ranges legal) = initWords ranges := rfl

theorem startupWords_frames (c : Config) (k : Strategy) :
    (startupWords ranges legal).flatMap (InitWord.frames c k) = initFrames c k ranges := by
  cases k <;> rfl

theorem initFrames_length (c : Config) (k : Strategy) :
    (initFrames c k ranges).length = if k = .autoSeq then 13 else 11 := by
  cases k <;> rfl

/-- `v` with the ranges of the channels `cs` recorded, one after the other. -/
def recorded (v : Vector Byte 8) (cs : List Chan) : Vector Byte 8 :=
  cs.foldl (fun (u : Vector Byte 8) (c : Chan) => u.set c ranges[c]) v

theorem recorded_getElem (v : Vector Byte 8) (cs : List Chan) (d : Chan) :
    (recorded ranges v cs)[d] = if d ∈ cs then ranges[d] else v[d] := by
  induction cs generalizing v with
  | nil => rfl
  | cons c cs ih =>
    rw [recorded, List.foldl_cons, ← recorded, ih]
    by_cases hc : c = d
    · subst hc; simp
    · have hval : c.val ≠ d.val := fun heq => hc (Fin.ext heq)
      simp [Ne.symm hc, hval]

theorem recorded_channels (v : Vector Byte 8) : recorded ranges v channels = ranges :=
  Vector.ext fun i hi => (recorded_getElem ranges v channels ⟨i, hi⟩).trans (if_pos (mem_channels _))

/-- INIT configures the block, whatever it was before. -/
theorem startupWords_sets (k : Strategy) (g : Setup) :
    (startupWords ranges legal).foldl (InitWord.sets k) g = ⟨.ready, ranges, 0, k == .autoSeq⟩ := by
  have hsets : (startupWords ranges legal).foldl (InitWord.sets k) g =
      ⟨.ready, recorded ranges (Vector.replicate 8 0) channels, 0, k == .autoSeq⟩ := by cases k <;> rfl
  rw [hsets, recorded_channels]

end

/-! ## The startup (R281, R345) -/

/-- Settles O59: SCHED's move, the script of INIT up to its end or to the word that faults, and SCHED's start, which
looks whether the block is `Ready`. -/
theorem startupReachesReady : Obligations.StartupReachesReady := by
  intro s ranges now l rs d b hwf hbusy hidle hlock hrst hin legal
  have h : s.Available := ⟨hwf, hbusy, hidle, hlock, hrst⟩
  let u : State := { s.clearOutputs with inbox := initInput ranges :: .schedStart now :: l }
  have hmove : step s = .next u := step_startup h hin
  have hu : s.Sent [] s.busIn u := h.moves _
  have hscript : u.inbox = .script true (initScript (startupWords ranges legal)) :: .schedStart now :: l := by
    rw [startupWords_script]
    rfl
  have hadm : ∀ x, (startupWords ranges legal).head? = some x → x.Admitted u.drvState := fun x hx =>
    .inl (Option.some.inj hx).symm
  have hframes := startupWords_frames ranges legal s.cfg s.straps.strategy
  rw [← hframes]
  refine ⟨hframes ▸ initFrames_length ranges _ _, fun hex => ?_, fun m f a hf ha hex => ?_⟩
  · obtain ⟨t, hrun, hint, hdev, hsetup, hsent⟩ :=
      run_script_completes (s := u) _ hu.available rfl rfl hscript (.inl rfl) hadm hex
    have ht := hu.trans hsent
    rw [startupWords_sets] at hsetup
    have hready : t.drvState = .ready := congrArg Setup.drvState hsetup
    have harmed : t.autoArmed = (s.straps.strategy == .autoSeq) := congrArg Setup.autoArmed hsetup
    obtain ⟨hstart, _⟩ := (noIterationBeforeTheStart t l ht.available.wf ht.available.busy).1 now hint
    refine ⟨_, (core_run_succ hmove 24).trans ((core_run_then hrun 1).trans (core_run_succ (hstart hready) 0)), rfl,
      hready, beq_iff_eq.mpr hready, congrArg Setup.range hsetup, congrArg Setup.valid hsetup, ?_, hdev, ht.bus,
      ht.frames, ?_⟩
    · exact (iff_of_eq (congrArg (· = true) harmed)).trans beq_iff_eq
    · show { t.sched with started := true, deadline := max t.now now, missed := 0 } = _
      rw [ht.sched, ht.now]
  · obtain ⟨n, t, ws, hn, hrun, hint, hst, hdrv, hsent⟩ :=
      run_script_faults (s := u) _ hu.available rfl rfl hscript (.inl rfl) hadm (faultsAt_of_exchange hf ha hex)
    obtain ⟨⟨hwft, hbusyt, _, _, _⟩, _, _, hsched, _, hsentt, hbus⟩ := hu.trans hsent
    have hreport := step_script_reports hsent.available hint (by simp [hst])
    let v : State := { t.clearOutputs with
      inbox := .schedStart now :: l, sched := { t.sched with reports := t.sched.reports ++ [.initFailed t.curStatus] } }
    obtain ⟨_, hstart⟩ := (noIterationBeforeTheStart v l hwft hbusyt).1 now rfl
    have hpasses := hstart (show t.drvState ≠ .ready by simp [hdrv])
    refine ⟨n + 3, _, Nat.add_le_add_right hn 3, (core_run_succ hmove (n + 2)).trans ((core_run_then hrun 2).trans
      ((core_run_succ hreport 1).trans (core_run_succ hpasses 0))), rfl, hbusyt, hdrv, hbus, ?_, ?_⟩
    · rw [List.append_assoc]
      exact hsentt
    · show { t.sched with reports := t.sched.reports ++ [SchedReport.initFailed t.curStatus] } = _
      rw [hsched, hst]

end Sys2Proof.Machine
end
